-- ==== Sys2Proof/Word.lean ====
section
/-! DEFINITION. The two data widths of the core (00_scope.md R6, 20_memory.md R68). -/

namespace Sys2Proof

/-- A byte: DATA_WIDTH = 8 (R6). -/
abbrev Byte := BitVec 8

/-- A word: ADDR_WIDTH = 16 (R6). -/
abbrev Word := BitVec 16

end Sys2Proof
end

