-- ==== Sys2Proof/Syntax.lean ====
section
/-! DEFINITION. The instructions: one constructor per row of spec/opcode_table.json (30_encoding.md R97), its
operands as the bytes of R91 and R92. A mnemonic's constructors differ in addressing mode: Imm, Zp, ZpX, ZpY, Abs, AbsX,
AbsY, Ind, IndX ((indirect,X)) and IndY ((indirect),Y). -/

namespace Sys2Proof

/-- An instruction: operation, addressing mode and operand. `imm`, `zp` and `off` are the byte after the opcode, `addr` and
`ptr` the little-endian word after it (R92). -/
inductive Instr where
  -- load and store (41_load_store.md)
  /-- `LDA #$nn`, opcode 0xA9 (R160, R130). -/
  | ldaImm (imm : Byte)
  /-- `LDA $nn`, opcode 0xA5 (R160, R131). -/
  | ldaZp (zp : Byte)
  /-- `LDA $nn,X`, opcode 0xB5 (R160, R132). -/
  | ldaZpX (zp : Byte)
  /-- `LDA $nnnn`, opcode 0xAD (R160, R133). -/
  | ldaAbs (addr : Word)
  /-- `LDA $nnnn,X`, opcode 0xBD (R160, R134). -/
  | ldaAbsX (addr : Word)
  /-- `LDA $nnnn,Y`, opcode 0xB9 (R160, R134). -/
  | ldaAbsY (addr : Word)
  /-- `LDA ($nn,X)`, opcode 0xA1 (R160, R137). -/
  | ldaIndX (zp : Byte)
  /-- `LDA ($nn),Y`, opcode 0xB1 (R160, R138). -/
  | ldaIndY (zp : Byte)
  /-- `LDX #$nn`, opcode 0xA2 (R161, R130). -/
  | ldxImm (imm : Byte)
  /-- `LDX $nn`, opcode 0xA6 (R161, R131). -/
  | ldxZp (zp : Byte)
  /-- `LDX $nn,Y`, opcode 0xB6 (R161, R132). -/
  | ldxZpY (zp : Byte)
  /-- `LDX $nnnn`, opcode 0xAE (R161, R133). -/
  | ldxAbs (addr : Word)
  /-- `LDX $nnnn,Y`, opcode 0xBE (R161, R134). -/
  | ldxAbsY (addr : Word)
  /-- `LDY #$nn`, opcode 0xA0 (R162, R130). -/
  | ldyImm (imm : Byte)
  /-- `LDY $nn`, opcode 0xA4 (R162, R131). -/
  | ldyZp (zp : Byte)
  /-- `LDY $nn,X`, opcode 0xB4 (R162, R132). -/
  | ldyZpX (zp : Byte)
  /-- `LDY $nnnn`, opcode 0xAC (R162, R133). -/
  | ldyAbs (addr : Word)
  /-- `LDY $nnnn,X`, opcode 0xBC (R162, R134). -/
  | ldyAbsX (addr : Word)
  /-- `STA $nn`, opcode 0x85 (R163, R131). -/
  | staZp (zp : Byte)
  /-- `STA $nn,X`, opcode 0x95 (R163, R132). -/
  | staZpX (zp : Byte)
  /-- `STA $nnnn`, opcode 0x8D (R163, R133). -/
  | staAbs (addr : Word)
  /-- `STA $nnnn,X`, opcode 0x9D (R163, R135). -/
  | staAbsX (addr : Word)
  /-- `STA $nnnn,Y`, opcode 0x99 (R163, R135). -/
  | staAbsY (addr : Word)
  /-- `STA ($nn,X)`, opcode 0x81 (R163, R137). -/
  | staIndX (zp : Byte)
  /-- `STA ($nn),Y`, opcode 0x91 (R163, R139). -/
  | staIndY (zp : Byte)
  /-- `STX $nn`, opcode 0x86 (R164, R131). -/
  | stxZp (zp : Byte)
  /-- `STX $nn,Y`, opcode 0x96 (R164, R132). -/
  | stxZpY (zp : Byte)
  /-- `STX $nnnn`, opcode 0x8E (R164, R133). -/
  | stxAbs (addr : Word)
  /-- `STY $nn`, opcode 0x84 (R165, R131). -/
  | styZp (zp : Byte)
  /-- `STY $nn,X`, opcode 0x94 (R165, R132). -/
  | styZpX (zp : Byte)
  /-- `STY $nnnn`, opcode 0x8C (R165, R133). -/
  | styAbs (addr : Word)
  -- logical and BIT (42_logical.md)
  /-- `AND #$nn`, opcode 0x29 (R180, R130). -/
  | andImm (imm : Byte)
  /-- `AND $nn`, opcode 0x25 (R180, R131). -/
  | andZp (zp : Byte)
  /-- `AND $nn,X`, opcode 0x35 (R180, R132). -/
  | andZpX (zp : Byte)
  /-- `AND $nnnn`, opcode 0x2D (R180, R133). -/
  | andAbs (addr : Word)
  /-- `AND $nnnn,X`, opcode 0x3D (R180, R134). -/
  | andAbsX (addr : Word)
  /-- `AND $nnnn,Y`, opcode 0x39 (R180, R134). -/
  | andAbsY (addr : Word)
  /-- `AND ($nn,X)`, opcode 0x21 (R180, R137). -/
  | andIndX (zp : Byte)
  /-- `AND ($nn),Y`, opcode 0x31 (R180, R138). -/
  | andIndY (zp : Byte)
  /-- `ORA #$nn`, opcode 0x09 (R181, R130). -/
  | oraImm (imm : Byte)
  /-- `ORA $nn`, opcode 0x05 (R181, R131). -/
  | oraZp (zp : Byte)
  /-- `ORA $nn,X`, opcode 0x15 (R181, R132). -/
  | oraZpX (zp : Byte)
  /-- `ORA $nnnn`, opcode 0x0D (R181, R133). -/
  | oraAbs (addr : Word)
  /-- `ORA $nnnn,X`, opcode 0x1D (R181, R134). -/
  | oraAbsX (addr : Word)
  /-- `ORA $nnnn,Y`, opcode 0x19 (R181, R134). -/
  | oraAbsY (addr : Word)
  /-- `ORA ($nn,X)`, opcode 0x01 (R181, R137). -/
  | oraIndX (zp : Byte)
  /-- `ORA ($nn),Y`, opcode 0x11 (R181, R138). -/
  | oraIndY (zp : Byte)
  /-- `EOR #$nn`, opcode 0x49 (R182, R130). -/
  | eorImm (imm : Byte)
  /-- `EOR $nn`, opcode 0x45 (R182, R131). -/
  | eorZp (zp : Byte)
  /-- `EOR $nn,X`, opcode 0x55 (R182, R132). -/
  | eorZpX (zp : Byte)
  /-- `EOR $nnnn`, opcode 0x4D (R182, R133). -/
  | eorAbs (addr : Word)
  /-- `EOR $nnnn,X`, opcode 0x5D (R182, R134). -/
  | eorAbsX (addr : Word)
  /-- `EOR $nnnn,Y`, opcode 0x59 (R182, R134). -/
  | eorAbsY (addr : Word)
  /-- `EOR ($nn,X)`, opcode 0x41 (R182, R137). -/
  | eorIndX (zp : Byte)
  /-- `EOR ($nn),Y`, opcode 0x51 (R182, R138). -/
  | eorIndY (zp : Byte)
  /-- `BIT $nn`, opcode 0x24 (R183, R131). -/
  | bitZp (zp : Byte)
  /-- `BIT $nnnn`, opcode 0x2C (R183, R133). -/
  | bitAbs (addr : Word)
  -- transfer and stack (43_transfer_stack.md)
  /-- `TAX`, opcode 0xAA (R190, R142). -/
  | tax
  /-- `TAY`, opcode 0xA8 (R191, R142). -/
  | tay
  /-- `TXA`, opcode 0x8A (R192, R142). -/
  | txa
  /-- `TYA`, opcode 0x98 (R193, R142). -/
  | tya
  /-- `TSX`, opcode 0xBA (R194, R142). -/
  | tsx
  /-- `TXS`, opcode 0x9A (R195, R142). -/
  | txs
  /-- `PHA`, opcode 0x48 (R196, R142). -/
  | pha
  /-- `PHP`, opcode 0x08 (R197, R142). -/
  | php
  /-- `PLA`, opcode 0x68 (R198, R142). -/
  | pla
  /-- `PLP`, opcode 0x28 (R199, R142). -/
  | plp
  -- increment, decrement and add with carry (44_incdec_adc.md)
  /-- `INC $nn`, opcode 0xE6 (R212, R131). -/
  | incZp (zp : Byte)
  /-- `INC $nn,X`, opcode 0xF6 (R212, R132). -/
  | incZpX (zp : Byte)
  /-- `INC $nnnn`, opcode 0xEE (R212, R133). -/
  | incAbs (addr : Word)
  /-- `INC $nnnn,X`, opcode 0xFE (R212, R135). -/
  | incAbsX (addr : Word)
  /-- `DEC $nn`, opcode 0xC6 (R213, R131). -/
  | decZp (zp : Byte)
  /-- `DEC $nn,X`, opcode 0xD6 (R213, R132). -/
  | decZpX (zp : Byte)
  /-- `DEC $nnnn`, opcode 0xCE (R213, R133). -/
  | decAbs (addr : Word)
  /-- `DEC $nnnn,X`, opcode 0xDE (R213, R135). -/
  | decAbsX (addr : Word)
  /-- `INX`, opcode 0xE8 (R214, R142). -/
  | inx
  /-- `INY`, opcode 0xC8 (R215, R142). -/
  | iny
  /-- `DEX`, opcode 0xCA (R216, R142). -/
  | dex
  /-- `DEY`, opcode 0x88 (R217, R142). -/
  | dey
  /-- `ADC #$nn`, opcode 0x69 (R218, R130). -/
  | adcImm (imm : Byte)
  /-- `ADC $nn`, opcode 0x65 (R218, R131). -/
  | adcZp (zp : Byte)
  /-- `ADC $nn,X`, opcode 0x75 (R218, R132). -/
  | adcZpX (zp : Byte)
  /-- `ADC $nnnn`, opcode 0x6D (R218, R133). -/
  | adcAbs (addr : Word)
  /-- `ADC $nnnn,X`, opcode 0x7D (R218, R134). -/
  | adcAbsX (addr : Word)
  /-- `ADC $nnnn,Y`, opcode 0x79 (R218, R134). -/
  | adcAbsY (addr : Word)
  /-- `ADC ($nn,X)`, opcode 0x61 (R218, R137). -/
  | adcIndX (zp : Byte)
  /-- `ADC ($nn),Y`, opcode 0x71 (R218, R138). -/
  | adcIndY (zp : Byte)
  -- flag set and clear (45_flag_ops.md)
  /-- `CLC`, opcode 0x18 (R230, R142). -/
  | clc
  /-- `SEC`, opcode 0x38 (R231, R142). -/
  | sec
  /-- `CLI`, opcode 0x58 (R232, R142). -/
  | cli
  /-- `SEI`, opcode 0x78 (R233, R142). -/
  | sei
  /-- `CLV`, opcode 0xB8 (R234, R142). -/
  | clv
  /-- `CLD`, opcode 0xD8 (R235, R142). -/
  | cld
  /-- `SED`, opcode 0xF8 (R236, R142). -/
  | sed
  -- branches, jumps, subroutines and NOP (46_control_flow.md)
  /-- `BPL *+d`, opcode 0x10 (R241, R140). -/
  | bpl (off : Byte)
  /-- `BMI *+d`, opcode 0x30 (R242, R140). -/
  | bmi (off : Byte)
  /-- `BVC *+d`, opcode 0x50 (R243, R140). -/
  | bvc (off : Byte)
  /-- `BVS *+d`, opcode 0x70 (R244, R140). -/
  | bvs (off : Byte)
  /-- `BCC *+d`, opcode 0x90 (R245, R140). -/
  | bcc (off : Byte)
  /-- `BCS *+d`, opcode 0xB0 (R246, R140). -/
  | bcs (off : Byte)
  /-- `BNE *+d`, opcode 0xD0 (R247, R140). -/
  | bne (off : Byte)
  /-- `BEQ *+d`, opcode 0xF0 (R248, R140). -/
  | beq (off : Byte)
  /-- `JMP $nnnn`, opcode 0x4C (R249, R133). -/
  | jmpAbs (addr : Word)
  /-- `JMP ($nnnn)`, opcode 0x6C (R249, R136). -/
  | jmpInd (ptr : Word)
  /-- `JSR $nnnn`, opcode 0x20 (R250, R133). -/
  | jsr (addr : Word)
  /-- `RTS`, opcode 0x60 (R251, R142). -/
  | rts
  /-- `NOP`, opcode 0xEA (R252, R142). -/
  | nop
deriving DecidableEq, Repr

/-- The 46 mnemonics (R97). -/
inductive Mnemonic where
  | LDA | LDX | LDY | STA | STX | STY | AND | ORA | EOR | BIT | TAX | TAY | TXA | TYA
  | TSX | TXS | PHA | PHP | PLA | PLP | INC | DEC | INX | INY | DEX | DEY | ADC | CLC
  | SEC | CLI | SEI | CLV | CLD | SED | BPL | BMI | BVC | BVS | BCC | BCS | BNE | BEQ
  | JMP | JSR | RTS | NOP
deriving DecidableEq, Repr

/-- The addressing modes the decoder can return (R95). -/
inductive Mode where
  | implied
  | immediate
  | zeroPage
  | zeroPageX
  | zeroPageY
  | absolute
  | absoluteX
  | absoluteXStore
  | absoluteY
  | absoluteYStore
  | indirect
  | indirectX
  | indirectY
  | indirectYStore
  | relative
deriving DecidableEq, Repr

/-- An instruction's length in bytes, which its format fixes (R91). -/
def Mode.length : Mode → Nat
  | .implied => 1
  | .immediate => 2
  | .zeroPage => 2
  | .zeroPageX => 2
  | .zeroPageY => 2
  | .absolute => 3
  | .absoluteX => 3
  | .absoluteXStore => 3
  | .absoluteY => 3
  | .absoluteYStore => 3
  | .indirect => 3
  | .indirectX => 2
  | .indirectY => 2
  | .indirectYStore => 2
  | .relative => 2

/-- The mnemonic column of R97. -/
def Instr.mnemonic : Instr → Mnemonic
  | .ldaImm _ | .ldaZp _ | .ldaZpX _ | .ldaAbs _ | .ldaAbsX _ | .ldaAbsY _ | .ldaIndX _ | .ldaIndY _ => .LDA
  | .ldxImm _ | .ldxZp _ | .ldxZpY _ | .ldxAbs _ | .ldxAbsY _ => .LDX
  | .ldyImm _ | .ldyZp _ | .ldyZpX _ | .ldyAbs _ | .ldyAbsX _ => .LDY
  | .staZp _ | .staZpX _ | .staAbs _ | .staAbsX _ | .staAbsY _ | .staIndX _ | .staIndY _ => .STA
  | .stxZp _ | .stxZpY _ | .stxAbs _ => .STX
  | .styZp _ | .styZpX _ | .styAbs _ => .STY
  | .andImm _ | .andZp _ | .andZpX _ | .andAbs _ | .andAbsX _ | .andAbsY _ | .andIndX _ | .andIndY _ => .AND
  | .oraImm _ | .oraZp _ | .oraZpX _ | .oraAbs _ | .oraAbsX _ | .oraAbsY _ | .oraIndX _ | .oraIndY _ => .ORA
  | .eorImm _ | .eorZp _ | .eorZpX _ | .eorAbs _ | .eorAbsX _ | .eorAbsY _ | .eorIndX _ | .eorIndY _ => .EOR
  | .bitZp _ | .bitAbs _ => .BIT
  | .tax => .TAX
  | .tay => .TAY
  | .txa => .TXA
  | .tya => .TYA
  | .tsx => .TSX
  | .txs => .TXS
  | .pha => .PHA
  | .php => .PHP
  | .pla => .PLA
  | .plp => .PLP
  | .incZp _ | .incZpX _ | .incAbs _ | .incAbsX _ => .INC
  | .decZp _ | .decZpX _ | .decAbs _ | .decAbsX _ => .DEC
  | .inx => .INX
  | .iny => .INY
  | .dex => .DEX
  | .dey => .DEY
  | .adcImm _ | .adcZp _ | .adcZpX _ | .adcAbs _ | .adcAbsX _ | .adcAbsY _ | .adcIndX _ | .adcIndY _ => .ADC
  | .clc => .CLC
  | .sec => .SEC
  | .cli => .CLI
  | .sei => .SEI
  | .clv => .CLV
  | .cld => .CLD
  | .sed => .SED
  | .bpl _ => .BPL
  | .bmi _ => .BMI
  | .bvc _ => .BVC
  | .bvs _ => .BVS
  | .bcc _ => .BCC
  | .bcs _ => .BCS
  | .bne _ => .BNE
  | .beq _ => .BEQ
  | .jmpAbs _ | .jmpInd _ => .JMP
  | .jsr _ => .JSR
  | .rts => .RTS
  | .nop => .NOP

/-- The addressing-mode column of R97. -/
def Instr.mode : Instr → Mode
  | .tax | .tay | .txa | .tya | .tsx | .txs | .pha | .php | .pla | .plp
  | .inx | .iny | .dex | .dey | .clc | .sec | .cli | .sei | .clv | .cld
  | .sed | .rts | .nop => .implied
  | .ldaImm _ | .ldxImm _ | .ldyImm _ | .andImm _ | .oraImm _ | .eorImm _ | .adcImm _ => .immediate
  | .ldaZp _ | .ldxZp _ | .ldyZp _ | .staZp _ | .stxZp _ | .styZp _ | .andZp _ | .oraZp _ | .eorZp _ | .bitZp _
  | .incZp _ | .decZp _ | .adcZp _ => .zeroPage
  | .ldaZpX _ | .ldyZpX _ | .staZpX _ | .styZpX _ | .andZpX _ | .oraZpX _ | .eorZpX _ | .incZpX _ | .decZpX _ | .adcZpX _ => .zeroPageX
  | .ldxZpY _ | .stxZpY _ => .zeroPageY
  | .ldaAbs _ | .ldxAbs _ | .ldyAbs _ | .staAbs _ | .stxAbs _ | .styAbs _ | .andAbs _ | .oraAbs _ | .eorAbs _ | .bitAbs _
  | .incAbs _ | .decAbs _ | .adcAbs _ | .jmpAbs _ | .jsr _ => .absolute
  | .ldaAbsX _ | .ldyAbsX _ | .andAbsX _ | .oraAbsX _ | .eorAbsX _ | .adcAbsX _ => .absoluteX
  | .staAbsX _ | .incAbsX _ | .decAbsX _ => .absoluteXStore
  | .ldaAbsY _ | .ldxAbsY _ | .andAbsY _ | .oraAbsY _ | .eorAbsY _ | .adcAbsY _ => .absoluteY
  | .staAbsY _ => .absoluteYStore
  | .jmpInd _ => .indirect
  | .ldaIndX _ | .staIndX _ | .andIndX _ | .oraIndX _ | .eorIndX _ | .adcIndX _ => .indirectX
  | .ldaIndY _ | .andIndY _ | .oraIndY _ | .eorIndY _ | .adcIndY _ => .indirectY
  | .staIndY _ => .indirectYStore
  | .bpl _ | .bmi _ | .bvc _ | .bvs _ | .bcc _ | .bcs _ | .bne _ | .beq _ => .relative

end Sys2Proof
end

