-- ==== Sys2Proof/Decode.lean ====
section
/-! DEFINITION. Decoding, total on any bytes and rejecting by name, and encoding (30_encoding.md), with the
byte-order helpers both use. -/

namespace Sys2Proof

/-! ### Byte order (00_scope.md R7, 30_encoding.md R92) -/

/-- `hi:lo`, that is `lo | (hi << 8)` (R7, R92). -/
def wordOfBytes (lo hi : Byte) : Word := hi ++ lo

/-- The low byte `w[7:0]` (R7). -/
def loByte (w : Word) : Byte := w.extractLsb' 0 8

/-- The high byte `w[15:8]` (R7). -/
def hiByte (w : Word) : Byte := w.extractLsb' 8 8

/-! ### The opcode table (R97) -/

/-- What follows an opcode, with the instruction it makes (R91): nothing, a byte, or a word. -/
inductive Shape where
  | implied (i : Instr)
  | byte (f : Byte → Instr)
  | word (f : Word → Instr)

/-- One row of the opcode table: the whole opcode byte (mask 0xFF, R94) and what it stands for. -/
structure Row where
  opcode : Byte
  shape : Shape

/-- Rows of R97: load and store (41_load_store.md). -/
def rowsLoadStore1 : List Row :=
  [ ⟨0xA9#8, .byte .ldaImm⟩,
    ⟨0xA5#8, .byte .ldaZp⟩,
    ⟨0xB5#8, .byte .ldaZpX⟩,
    ⟨0xAD#8, .word .ldaAbs⟩,
    ⟨0xBD#8, .word .ldaAbsX⟩,
    ⟨0xB9#8, .word .ldaAbsY⟩,
    ⟨0xA1#8, .byte .ldaIndX⟩,
    ⟨0xB1#8, .byte .ldaIndY⟩,
    ⟨0xA2#8, .byte .ldxImm⟩,
    ⟨0xA6#8, .byte .ldxZp⟩,
    ⟨0xB6#8, .byte .ldxZpY⟩,
    ⟨0xAE#8, .word .ldxAbs⟩,
    ⟨0xBE#8, .word .ldxAbsY⟩,
    ⟨0xA0#8, .byte .ldyImm⟩,
    ⟨0xA4#8, .byte .ldyZp⟩,
    ⟨0xB4#8, .byte .ldyZpX⟩ ]

/-- Rows of R97: load and store (41_load_store.md). -/
def rowsLoadStore2 : List Row :=
  [ ⟨0xAC#8, .word .ldyAbs⟩,
    ⟨0xBC#8, .word .ldyAbsX⟩,
    ⟨0x85#8, .byte .staZp⟩,
    ⟨0x95#8, .byte .staZpX⟩,
    ⟨0x8D#8, .word .staAbs⟩,
    ⟨0x9D#8, .word .staAbsX⟩,
    ⟨0x99#8, .word .staAbsY⟩,
    ⟨0x81#8, .byte .staIndX⟩,
    ⟨0x91#8, .byte .staIndY⟩,
    ⟨0x86#8, .byte .stxZp⟩,
    ⟨0x96#8, .byte .stxZpY⟩,
    ⟨0x8E#8, .word .stxAbs⟩,
    ⟨0x84#8, .byte .styZp⟩,
    ⟨0x94#8, .byte .styZpX⟩,
    ⟨0x8C#8, .word .styAbs⟩ ]

/-- Rows of R97: logical and BIT (42_logical.md). -/
def rowsLogical1 : List Row :=
  [ ⟨0x29#8, .byte .andImm⟩,
    ⟨0x25#8, .byte .andZp⟩,
    ⟨0x35#8, .byte .andZpX⟩,
    ⟨0x2D#8, .word .andAbs⟩,
    ⟨0x3D#8, .word .andAbsX⟩,
    ⟨0x39#8, .word .andAbsY⟩,
    ⟨0x21#8, .byte .andIndX⟩,
    ⟨0x31#8, .byte .andIndY⟩,
    ⟨0x09#8, .byte .oraImm⟩,
    ⟨0x05#8, .byte .oraZp⟩,
    ⟨0x15#8, .byte .oraZpX⟩,
    ⟨0x0D#8, .word .oraAbs⟩,
    ⟨0x1D#8, .word .oraAbsX⟩,
    ⟨0x19#8, .word .oraAbsY⟩,
    ⟨0x01#8, .byte .oraIndX⟩,
    ⟨0x11#8, .byte .oraIndY⟩ ]

/-- Rows of R97: logical and BIT (42_logical.md). -/
def rowsLogical2 : List Row :=
  [ ⟨0x49#8, .byte .eorImm⟩,
    ⟨0x45#8, .byte .eorZp⟩,
    ⟨0x55#8, .byte .eorZpX⟩,
    ⟨0x4D#8, .word .eorAbs⟩,
    ⟨0x5D#8, .word .eorAbsX⟩,
    ⟨0x59#8, .word .eorAbsY⟩,
    ⟨0x41#8, .byte .eorIndX⟩,
    ⟨0x51#8, .byte .eorIndY⟩,
    ⟨0x24#8, .byte .bitZp⟩,
    ⟨0x2C#8, .word .bitAbs⟩ ]

/-- Rows of R97: transfer and stack (43_transfer_stack.md). -/
def rowsTransferStack : List Row :=
  [ ⟨0xAA#8, .implied .tax⟩,
    ⟨0xA8#8, .implied .tay⟩,
    ⟨0x8A#8, .implied .txa⟩,
    ⟨0x98#8, .implied .tya⟩,
    ⟨0xBA#8, .implied .tsx⟩,
    ⟨0x9A#8, .implied .txs⟩,
    ⟨0x48#8, .implied .pha⟩,
    ⟨0x08#8, .implied .php⟩,
    ⟨0x68#8, .implied .pla⟩,
    ⟨0x28#8, .implied .plp⟩ ]

/-- Rows of R97: increment, decrement and add with carry (44_incdec_adc.md). -/
def rowsIncDecAdc1 : List Row :=
  [ ⟨0xE6#8, .byte .incZp⟩,
    ⟨0xF6#8, .byte .incZpX⟩,
    ⟨0xEE#8, .word .incAbs⟩,
    ⟨0xFE#8, .word .incAbsX⟩,
    ⟨0xC6#8, .byte .decZp⟩,
    ⟨0xD6#8, .byte .decZpX⟩,
    ⟨0xCE#8, .word .decAbs⟩,
    ⟨0xDE#8, .word .decAbsX⟩,
    ⟨0xE8#8, .implied .inx⟩,
    ⟨0xC8#8, .implied .iny⟩,
    ⟨0xCA#8, .implied .dex⟩,
    ⟨0x88#8, .implied .dey⟩,
    ⟨0x69#8, .byte .adcImm⟩,
    ⟨0x65#8, .byte .adcZp⟩,
    ⟨0x75#8, .byte .adcZpX⟩,
    ⟨0x6D#8, .word .adcAbs⟩ ]

/-- Rows of R97: increment, decrement and add with carry (44_incdec_adc.md). -/
def rowsIncDecAdc2 : List Row :=
  [ ⟨0x7D#8, .word .adcAbsX⟩,
    ⟨0x79#8, .word .adcAbsY⟩,
    ⟨0x61#8, .byte .adcIndX⟩,
    ⟨0x71#8, .byte .adcIndY⟩ ]

/-- Rows of R97: flag set and clear (45_flag_ops.md). -/
def rowsFlagOps : List Row :=
  [ ⟨0x18#8, .implied .clc⟩,
    ⟨0x38#8, .implied .sec⟩,
    ⟨0x58#8, .implied .cli⟩,
    ⟨0x78#8, .implied .sei⟩,
    ⟨0xB8#8, .implied .clv⟩,
    ⟨0xD8#8, .implied .cld⟩,
    ⟨0xF8#8, .implied .sed⟩ ]

/-- Rows of R97: branches, jumps, subroutines and NOP (46_control_flow.md). -/
def rowsControlFlow : List Row :=
  [ ⟨0x10#8, .byte .bpl⟩,
    ⟨0x30#8, .byte .bmi⟩,
    ⟨0x50#8, .byte .bvc⟩,
    ⟨0x70#8, .byte .bvs⟩,
    ⟨0x90#8, .byte .bcc⟩,
    ⟨0xB0#8, .byte .bcs⟩,
    ⟨0xD0#8, .byte .bne⟩,
    ⟨0xF0#8, .byte .beq⟩,
    ⟨0x4C#8, .word .jmpAbs⟩,
    ⟨0x6C#8, .word .jmpInd⟩,
    ⟨0x20#8, .word .jsr⟩,
    ⟨0x60#8, .implied .rts⟩,
    ⟨0xEA#8, .implied .nop⟩ ]

/-- The 107 rows of R97. -/
def opcodeTable : List Row :=
  rowsLoadStore1 ++ rowsLoadStore2 ++ rowsLogical1 ++ rowsLogical2 ++
    rowsTransferStack ++ rowsIncDecAdc1 ++ rowsIncDecAdc2 ++ rowsFlagOps ++ rowsControlFlow

/-- The row of an opcode among `rows`. -/
def findRow (op : Byte) : List Row → Option Shape
  | [] => none
  | r :: rows => if r.opcode = op then some r.shape else findRow op rows

/-- The decode function of R96; `none` is the unmatched arm. -/
def decodeOpcode (op : Byte) : Option Shape := findRow op opcodeTable

/-! ### Decoding a list of bytes -/

/-- Why bytes are no instruction. -/
inductive DecodeError where
  /-- The list is empty. -/
  | noBytes
  /-- The opcode is one of the 149 unrecognized bytes (R99). -/
  | unknownOpcode (op : Byte)
  /-- The list ends before the operand of a recognized opcode. The machine never meets this: it always has 3 bytes. -/
  | operandMissing (op : Byte)
deriving DecidableEq, Repr

/-- The instruction the bytes begin with and the bytes after it (R90 to R93). -/
def decode : List Byte → Except DecodeError (Instr × List Byte)
  | [] => .error .noBytes
  | op :: rest =>
    match decodeOpcode op, rest with
    | none, _ => .error (.unknownOpcode op)
    | some (.implied i), _ => .ok (i, rest)
    | some (.byte f), b :: rest => .ok (f b, rest)
    | some (.word f), lo :: hi :: rest => .ok (f (wordOfBytes lo hi), rest)
    | some _, _ => .error (.operandMissing op)

/-! ### Encoding -/

/-- An instruction of one byte (R91). -/
def enc1 (op : Byte) : List Byte := [op]

/-- An opcode and an operand byte (R91). -/
def enc2 (op b : Byte) : List Byte := [op, b]

/-- An opcode and an operand word, low byte first (R91, R92). -/
def enc3 (op : Byte) (w : Word) : List Byte := [op, loByte w, hiByte w]

/-- The bytes of an instruction, opcode first, from the table of R97 and the formats of R91. -/
def encode (i : Instr) : List Byte :=
  match i with
  -- load and store (41_load_store.md)
  | .ldaImm imm => enc2 0xA9#8 imm
  | .ldaZp zp => enc2 0xA5#8 zp
  | .ldaZpX zp => enc2 0xB5#8 zp
  | .ldaAbs addr => enc3 0xAD#8 addr
  | .ldaAbsX addr => enc3 0xBD#8 addr
  | .ldaAbsY addr => enc3 0xB9#8 addr
  | .ldaIndX zp => enc2 0xA1#8 zp
  | .ldaIndY zp => enc2 0xB1#8 zp
  | .ldxImm imm => enc2 0xA2#8 imm
  | .ldxZp zp => enc2 0xA6#8 zp
  | .ldxZpY zp => enc2 0xB6#8 zp
  | .ldxAbs addr => enc3 0xAE#8 addr
  | .ldxAbsY addr => enc3 0xBE#8 addr
  | .ldyImm imm => enc2 0xA0#8 imm
  | .ldyZp zp => enc2 0xA4#8 zp
  | .ldyZpX zp => enc2 0xB4#8 zp
  | .ldyAbs addr => enc3 0xAC#8 addr
  | .ldyAbsX addr => enc3 0xBC#8 addr
  | .staZp zp => enc2 0x85#8 zp
  | .staZpX zp => enc2 0x95#8 zp
  | .staAbs addr => enc3 0x8D#8 addr
  | .staAbsX addr => enc3 0x9D#8 addr
  | .staAbsY addr => enc3 0x99#8 addr
  | .staIndX zp => enc2 0x81#8 zp
  | .staIndY zp => enc2 0x91#8 zp
  | .stxZp zp => enc2 0x86#8 zp
  | .stxZpY zp => enc2 0x96#8 zp
  | .stxAbs addr => enc3 0x8E#8 addr
  | .styZp zp => enc2 0x84#8 zp
  | .styZpX zp => enc2 0x94#8 zp
  | .styAbs addr => enc3 0x8C#8 addr
  -- logical and BIT (42_logical.md)
  | .andImm imm => enc2 0x29#8 imm
  | .andZp zp => enc2 0x25#8 zp
  | .andZpX zp => enc2 0x35#8 zp
  | .andAbs addr => enc3 0x2D#8 addr
  | .andAbsX addr => enc3 0x3D#8 addr
  | .andAbsY addr => enc3 0x39#8 addr
  | .andIndX zp => enc2 0x21#8 zp
  | .andIndY zp => enc2 0x31#8 zp
  | .oraImm imm => enc2 0x09#8 imm
  | .oraZp zp => enc2 0x05#8 zp
  | .oraZpX zp => enc2 0x15#8 zp
  | .oraAbs addr => enc3 0x0D#8 addr
  | .oraAbsX addr => enc3 0x1D#8 addr
  | .oraAbsY addr => enc3 0x19#8 addr
  | .oraIndX zp => enc2 0x01#8 zp
  | .oraIndY zp => enc2 0x11#8 zp
  | .eorImm imm => enc2 0x49#8 imm
  | .eorZp zp => enc2 0x45#8 zp
  | .eorZpX zp => enc2 0x55#8 zp
  | .eorAbs addr => enc3 0x4D#8 addr
  | .eorAbsX addr => enc3 0x5D#8 addr
  | .eorAbsY addr => enc3 0x59#8 addr
  | .eorIndX zp => enc2 0x41#8 zp
  | .eorIndY zp => enc2 0x51#8 zp
  | .bitZp zp => enc2 0x24#8 zp
  | .bitAbs addr => enc3 0x2C#8 addr
  -- transfer and stack (43_transfer_stack.md)
  | .tax => enc1 0xAA#8
  | .tay => enc1 0xA8#8
  | .txa => enc1 0x8A#8
  | .tya => enc1 0x98#8
  | .tsx => enc1 0xBA#8
  | .txs => enc1 0x9A#8
  | .pha => enc1 0x48#8
  | .php => enc1 0x08#8
  | .pla => enc1 0x68#8
  | .plp => enc1 0x28#8
  -- increment, decrement and add with carry (44_incdec_adc.md)
  | .incZp zp => enc2 0xE6#8 zp
  | .incZpX zp => enc2 0xF6#8 zp
  | .incAbs addr => enc3 0xEE#8 addr
  | .incAbsX addr => enc3 0xFE#8 addr
  | .decZp zp => enc2 0xC6#8 zp
  | .decZpX zp => enc2 0xD6#8 zp
  | .decAbs addr => enc3 0xCE#8 addr
  | .decAbsX addr => enc3 0xDE#8 addr
  | .inx => enc1 0xE8#8
  | .iny => enc1 0xC8#8
  | .dex => enc1 0xCA#8
  | .dey => enc1 0x88#8
  | .adcImm imm => enc2 0x69#8 imm
  | .adcZp zp => enc2 0x65#8 zp
  | .adcZpX zp => enc2 0x75#8 zp
  | .adcAbs addr => enc3 0x6D#8 addr
  | .adcAbsX addr => enc3 0x7D#8 addr
  | .adcAbsY addr => enc3 0x79#8 addr
  | .adcIndX zp => enc2 0x61#8 zp
  | .adcIndY zp => enc2 0x71#8 zp
  -- flag set and clear (45_flag_ops.md)
  | .clc => enc1 0x18#8
  | .sec => enc1 0x38#8
  | .cli => enc1 0x58#8
  | .sei => enc1 0x78#8
  | .clv => enc1 0xB8#8
  | .cld => enc1 0xD8#8
  | .sed => enc1 0xF8#8
  -- branches, jumps, subroutines and NOP (46_control_flow.md)
  | .bpl off => enc2 0x10#8 off
  | .bmi off => enc2 0x30#8 off
  | .bvc off => enc2 0x50#8 off
  | .bvs off => enc2 0x70#8 off
  | .bcc off => enc2 0x90#8 off
  | .bcs off => enc2 0xB0#8 off
  | .bne off => enc2 0xD0#8 off
  | .beq off => enc2 0xF0#8 off
  | .jmpAbs addr => enc3 0x4C#8 addr
  | .jmpInd ptr => enc3 0x6C#8 ptr
  | .jsr addr => enc3 0x20#8 addr
  | .rts => enc1 0x60#8
  | .nop => enc1 0xEA#8

/-! ### The opcode table's words -/

/-- The bytes of a table word: bit 0 is the least significant bit of the first byte, later bytes follow, and every bit above
`nbits` is 0, up to the longest instruction (3 bytes, R93). -/
def tableBytes (nbits w : Nat) : List Byte :=
  let v := w % 2 ^ nbits
  [BitVec.ofNat 8 v, BitVec.ofNat 8 (v / 256), BitVec.ofNat 8 (v / 65536)]

/-- The instruction the decoder reads from a table word, `none` where it refuses. -/
def decodeTableWord (nbits w : Nat) : Option Instr :=
  match decode (tableBytes nbits w) with
  | .ok (i, _) => some i
  | .error _ => none

end Sys2Proof
end

