-- ==== Sys2Proof/Config.lean ====
section
/-! DEFINITION. The implementation parameters of 00_scope.md R6, all fixed by the spec, and one value of the
model's own (`idleBudget`, notes/assumptions/1.md). No value of this hardware is left free. -/

namespace Sys2Proof.Config

/-- STACK_BASE (R6, R33). -/
abbrev stackBase : Word := 0x0100#16

/-- SP_RESET (R6, R44). -/
abbrev spReset : Byte := 0xFF#8

/-- RESET_VECTOR, its low byte's address (R6); the high byte is at the next address. -/
abbrev resetVector : Word := 0xFFFC#16

/-- MEM_SIZE: 64 KiB, one address space (R6, R60). -/
abbrev memSize : Nat := 65536

/-- What a byte of memory reads as at creation and after `clear`: the memory is zero-initialized (R60, R65). -/
abbrev unwrittenByte : Byte := 0x00#8

/-- R6: whether the high byte of a zero-page pointer at 0xFF comes from 0x0000. False: from 0x0100 (D3). -/
abbrev zpPointerWrap : Bool := false

/-- R6: whether JMP ($xxFF) takes its high byte from $xx00. False: from $xxFF + 1 (D4). -/
abbrev jmpIndirectPageBug : Bool := false

/-- DESIGN CHOICE (log 1): what the budget field holds outside an execute call, where the spec has no budget (R42, R44). -/
abbrev idleBudget : Int := 0

end Sys2Proof.Config
end

