-- ==== Sys2Proof/Machine/State.lean ====
section
/-! DEFINITION. The architectural state (10_state.md R30, R42; 20_memory.md R60), its reset value, and the reasons
a run can stop. -/

namespace Sys2Proof.Machine

/-- The 65536 bytes of memory (R60) as the list of its bytes that differ from `Config.unwrittenByte`. -/
abbrev Memory := List Host.Cell

/-- The canonical form of a memory: addresses strictly rising and inside the address space, and no entry equal to what an
unlisted address reads as. Two memories in this form that read alike are equal data. -/
abbrev Memory.wf (m : Memory) : Prop :=
  m.Pairwise (fun c d => c.1 < d.1) ∧ ∀ c ∈ m, c.1 < Config.memSize ∧ c.2 ≠ Config.unwrittenByte

/-- The register file of R30, the memory the processor works on (R13, R60) and the cycle budget (R42). -/
@[ext]
structure State where
  /-- accumulator (R31) -/
  A : Byte
  /-- index register X (R32) -/
  X : Byte
  /-- index register Y (R32) -/
  Y : Byte
  /-- stack pointer, an offset in page 0x0100 (R33) -/
  SP : Byte
  /-- program counter (R34, R35) -/
  PC : Word
  /-- status flags, packed (R36, R41) -/
  P : Byte
  /-- the flat memory (R60) -/
  mem : Memory
  /-- the cycle budget counter, signed and unbounded (R42) -/
  budget : Int
deriving DecidableEq, Repr

/-- Right after creation, which is a reset over a zeroed memory (R44, R294): PC is the vector 0x0000 read from it.
The budget does not exist outside execute; its value here is the model's (DESIGN CHOICE, log 1). -/
def State.reset : State where
  A := 0x00#8
  X := 0x00#8
  Y := 0x00#8
  SP := Config.spReset
  PC := 0x0000#16
  P := 0x00#8
  mem := []
  budget := Config.idleBudget

/-- Why the machine stops with a fault: the core's one abnormal event (60_exceptions.md R260). -/
inductive Fault where
  /-- Raised by the decoder at an opcode fetch whose byte `op`, at address `addr`, is none of the 107 of R97 (R261).
  SAFE: the spec itself ends the run here, with the state before the fetch (R262). -/
  | unknownOpcode (op : Byte) (addr : Word)
deriving DecidableEq, Repr

/-- Why something has no meaning. -/
inductive Refusal where
  /-- Raised by no arm of `exec` any more: an instruction that the model gives no meaning. SAFE. -/
  | notModelled (mnemonic : String)
  /-- Raised by the host call `load` on a buffer shorter than 2 bytes, never by an instruction (R296, D21). SAFE. -/
  | loadBufferTooShort
  /-- Raised by the host call `load` on a buffer whose body would run past 0xFFFF, never by an instruction (R296, D21). SAFE. -/
  | loadPastEnd
deriving DecidableEq, Repr

end Sys2Proof.Machine
end

