-- ==== Sys2Proof/Machine/Ops.lean ====
section
/-! DEFINITION. The shared operations: extension of bytes, memory (20_memory.md), cycle charges and fetches
(40_fetch_and_addressing.md), the stack primitives, and raising the one fault (60_exceptions.md). -/

namespace Sys2Proof.Machine

/-- What one instruction, or one step, ends in. -/
abbrev Outcome := Host.Outcome State Fault Refusal

/-! ### Bytes to words (00_scope.md R8) -/

/-- Widens a byte with zeros (R8). -/
def zext16 (b : Byte) : Word := b.setWidth 16

/-- Widens a byte by copying bit 7 into bits 15..8 (R8). -/
def sext16 (b : Byte) : Word := b.signExtend 16

/-! ### The memory array (20_memory.md R61 to R65) -/

/-- readByte (R61). -/
def Memory.read : Memory → Word → Byte
  | [], _ => Config.unwrittenByte
  | (k, b) :: m, a => if k = a.toNat then b else Memory.read m a

/-- Lists `v` at address `k`, before the first higher address, in place of an entry for `k`. -/
def Memory.put (k : Nat) (v : Byte) : Memory → Memory
  | [] => [(k, v)]
  | (j, b) :: m =>
    if k < j then (k, v) :: (j, b) :: m
    else if k = j then (k, v) :: m
    else (j, b) :: Memory.put k v m

/-- writeByte (R62), keeping the canonical form: a byte that reads as unlisted is not listed. -/
def Memory.write (m : Memory) (a : Word) (v : Byte) : Memory :=
  if v = Config.unwrittenByte then m.filter (fun c => c.1 != a.toNat) else Memory.put a.toNat v m

/-- readWord: little-endian, the second byte at `addr +16 1` (R63). -/
def Memory.readWord (m : Memory) (a : Word) : Word := wordOfBytes (m.read a) (m.read (a + 1))

/-- writeWord: low byte at `addr`, high byte at `addr +16 1` (R64). -/
def Memory.writeWord (m : Memory) (a : Word) (w : Word) : Memory :=
  (m.write a (loByte w)).write (a + 1) (hiByte w)

/-- clear: zero-fills the array (R65). -/
def Memory.clear (_ : Memory) : Memory := []

/-! ### Cycle charges (40_fetch_and_addressing.md R123, R124) -/

/-- `budget <- budget - n` (R123). -/
def charge (n : Nat) (s : State) : State := { s with budget := s.budget - n }

/-- `Internal(n)`: n cycles, no memory or register touched (R124). -/
def internal (n : Nat) (s : State) : State := charge n s

/-- `MemRead(addr, 1)` with its charge of 1 (R61, R123). -/
def memRead1 (a : Word) (s : State) : Byte × State := (s.mem.read a, charge 1 s)

/-- `MemRead(addr, 2)` with its charge of 2 (R63, R123). The pointer reads of the modes go byte by byte (Operands.lean),
since R6 has parameters for their second address. -/
def memRead2 (a : Word) (s : State) : Word × State := (s.mem.readWord a, charge 2 s)

/-- `MemWrite(addr, 1, v)` with its charge of 1 (R62, R123). -/
def memWrite1 (a : Word) (v : Byte) (s : State) : State := charge 1 { s with mem := s.mem.write a v }

/-- `MemWrite(addr, 2, v)` with its charge of 2 (R64, R123). No instruction uses it (R64). -/
def memWrite2 (a : Word) (w : Word) (s : State) : State := charge 2 { s with mem := s.mem.writeWord a w }

/-! ### Fetches (R120 to R122)

The bytes fetched are those the decoder read at these addresses (`fetchWindow`, log 2); here the fetch moves PC and
charges its cycles. -/

/-- The bytes from which the decoder reads the next instruction: an instruction is at most 3 bytes long (R93), and
its bytes are at a, a +16 1 and a +16 2 (R91). -/
def fetchWindow (s : State) : List Byte := [s.mem.read s.PC, s.mem.read (s.PC + 1), s.mem.read (s.PC + 2)]

/-- Past the opcode byte (R120). -/
def fetchOpcode (s : State) : State := charge 1 { s with PC := s.PC + 1 }

/-- Past an operand byte (R121). -/
def fetchByte (s : State) : State := charge 1 { s with PC := s.PC + 1 }

/-- Past an operand word (R122). -/
def fetchWord (s : State) : State := charge 2 { s with PC := s.PC + 2 }

/-! ### The stack (20_memory.md R70 to R74) -/

/-- Effective stack address: 0x0100 + SP (R33). -/
def stackAddr (sp : Byte) : Word := Config.stackBase + zext16 sp

/-- Push byte (R70). -/
def pushByte (v : Byte) (s : State) : State :=
  let t := memWrite1 (stackAddr s.SP) v s
  { t with SP := s.SP - 1 }

/-- Push word: high byte at 0x0100+SP, then low byte one below, both in page 1 (R71). -/
def pushWord (w : Word) (s : State) : State :=
  let t := memWrite1 (stackAddr (s.SP - 1)) (loByte w) (memWrite1 (stackAddr s.SP) (hiByte w) s)
  { t with SP := s.SP - 2 }

/-- Pull byte (R72). -/
def pullByte (s : State) : Byte × State :=
  memRead1 (stackAddr (s.SP + 1)) { s with SP := s.SP + 1 }

/-- Pull word: low byte at 0x0100+SP+1, high byte at 0x0100+SP+2, both in page 1 (R73). -/
def pullWord (s : State) : Word × State :=
  let lo := memRead1 (stackAddr (s.SP + 1)) s
  let hi := memRead1 (stackAddr (s.SP + 2)) lo.2
  (wordOfBytes lo.1 hi.1, { hi.2 with SP := s.SP + 2 })

/-! ### The one abnormal event (60_exceptions.md R261, R262, R266) -/

/-- `raise UnknownOpcode(op, addr)` at the opcode fetch: nothing is saved, no mode or mask changes and no control is
transferred inside the machine; the state stays as it was before the fetch, with PC = addr (R262, R266). -/
def raiseUnknownOpcode (s : State) : Outcome := .fault (.unknownOpcode (s.mem.read s.PC) s.PC)

/-! ### Placing an instruction where it is fetched -/

/-- Stores the bytes at consecutive addresses from `a` on, wrapping past 0xFFFF. -/
def Memory.writeBytes (m : Memory) (a : Word) : List Byte → Memory
  | [] => m
  | b :: bs => Memory.writeBytes (m.write a b) (a + 1) bs

end Sys2Proof.Machine
end

