-- ==== Sys2Proof/Machine/Flags.lean ====
section
/-! DEFINITION. The status byte P (10_state.md R36 to R41) and the ALU functions that compute results and flags
(44_incdec_adc.md R210, R211; 42_logical.md R183). -/

namespace Sys2Proof.Machine

/-- The eight bits of P (R36). -/
inductive Flag where
  | C | Z | I | D | B | U | V | N
deriving DecidableEq, Repr

/-- A flag's bit position in P (R36). -/
def Flag.bit : Flag → Nat
  | .C => 0
  | .Z => 1
  | .I => 2
  | .D => 3
  | .B => 4
  | .U => 5
  | .V => 6
  | .N => 7

/-- The byte with only the flag's bit set. -/
def Flag.mask (f : Flag) : Byte := 1#8 <<< f.bit

/-- Reads one flag of a status byte (R41). -/
def getFlag (p : Byte) (f : Flag) : Bool := p.getLsbD f.bit

/-- Writes one flag of a status byte and keeps the other seven bits (R41). -/
def setFlag (p : Byte) (f : Flag) (v : Bool) : Byte := if v then p ||| f.mask else p &&& ~~~f.mask

/-- `P.f <- v`. -/
def writeFlag (f : Flag) (v : Bool) (s : State) : State := { s with P := setFlag s.P f v }

/-- Assignment flags `SetZN(v)` (R38). -/
def setZN (v : Byte) (s : State) : State := writeFlag .N (v.getLsbD 7) (writeFlag .Z (v == 0x00#8) s)

/-- Bits 4 and 5: forced to 1 in a pushed copy of P (R197), kept by PLP (R199). -/
def pushedMask : Byte := 0b00110000#8

/-- The copy of P that PHP pushes (R197). -/
def pushedP (p : Byte) : Byte := p ||| pushedMask

/-- The P that PLP leaves: bits 4 and 5 from the live P, the rest from the pulled byte (R199). -/
def pulledP (p pulled : Byte) : Byte := (p &&& 0b00110000#8) ||| (pulled &&& 0b11001111#8)

/-! ### ALU functions -/

/-- `inc8`: +1 modulo 256 (R210). -/
def inc8 (v : Byte) : Byte := v + 1

/-- `dec8`: -1 modulo 256 (R210). -/
def dec8 (v : Byte) : Byte := v - 1

/-- What `adc8` gives: the wrapped sum, carry out and signed overflow (R211). -/
structure AdcResult where
  r : Byte
  cout : Bool
  v : Bool
deriving DecidableEq, Repr

/-- The result byte of an add with carry: the exact sum modulo 256 (R211). -/
def adcSum (a m : Byte) (cin : Bool) : Byte := BitVec.ofNat 8 (a.toNat + m.toNat + cin.toNat)

/-- Carry out, in the source's two parts (R211). -/
def adcCarry (a m : Byte) (cin : Bool) : Bool :=
  decide (256 ≤ a.toNat + m.toNat) || (cin && decide (a.toNat + m.toNat = 255))

/-- Signed overflow: the operands' signs agree and the result's differs (R211). -/
def adcOverflow (a m r : Byte) : Bool := (a.getLsbD 7 == m.getLsbD 7) && (r.getLsbD 7 != a.getLsbD 7)

/-- `adc8`: binary whatever P.D holds (R211, D24). -/
def adc8 (a m : Byte) (cin : Bool) : AdcResult :=
  { r := adcSum a m cin, cout := adcCarry a m cin, v := adcOverflow a m (adcSum a m cin) }

end Sys2Proof.Machine
end

