-- ==== Sys2Proof/Machine/Operands.lean ====
section
/-! DEFINITION. The addressing modes (40_fetch_and_addressing.md R130 to R143). Each mode takes the operand the
decoder read and the state after the opcode fetch, and gives the effective address and the state with the operand's fetch
and the mode's cycles charged. -/

namespace Sys2Proof.Machine

/-- Page crossing: the high bytes differ (R141). -/
def crossed (a b : Word) : Bool := hiByte a != hiByte b

/-- One more cycle if a page is crossed (R134, R138, R140). -/
def chargeIfCrossed (a b : Word) (s : State) : State := if crossed a b then internal 1 s else s

/-- Address of a zero-page pointer's high byte: `zp +16 1`, in page 1 for zp = 0xFF (R137, D3); the other setting of the
parameter of R6 wraps in page 0. -/
def zpPointerHigh (zp : Byte) : Word := if Config.zpPointerWrap then zext16 (zp + 1) else zext16 zp + 1

/-- Address of the high byte of JMP indirect's pointer: `ptr +16 1` (R136, D4); the other setting of the parameter of R6
wraps inside the page. -/
def jmpPointerHigh (ptr : Word) : Word :=
  if Config.jmpIndirectPageBug then wordOfBytes (loByte ptr + 1) (hiByte ptr) else ptr + 1

/-- The word a zero-page pointer holds (R137, R138). -/
def zpPointer (m : Memory) (zp : Byte) : Word := wordOfBytes (m.read (zext16 zp)) (m.read (zpPointerHigh zp))

/-- The word JMP indirect's pointer holds (R136). -/
def jmpPointer (m : Memory) (ptr : Word) : Word := wordOfBytes (m.read ptr) (m.read (jmpPointerHigh ptr))

/-- Immediate: the operand byte itself (R130). -/
def immediate (imm : Byte) (s : State) : Byte × State := (imm, fetchByte s)

/-- Zero page (R131). -/
def zeroPage (zp : Byte) (s : State) : Word × State := (zext16 zp, fetchByte s)

/-- Zero page indexed: the sum wraps in page 0 (R132). -/
def zeroPageIndexed (zp idx : Byte) (s : State) : Word × State := (zext16 (zp + idx), internal 1 (fetchByte s))

/-- Zero page,X (R132). -/
def zeroPageX (zp : Byte) (s : State) : Word × State := zeroPageIndexed zp s.X s

/-- Zero page,Y (R132). -/
def zeroPageY (zp : Byte) (s : State) : Word × State := zeroPageIndexed zp s.Y s

/-- Absolute (R133). -/
def absolute (addr : Word) (s : State) : Word × State := (addr, fetchWord s)

/-- Absolute indexed, read variant: a cycle more on a page cross (R134). -/
def absoluteIndexed (base : Word) (idx : Byte) (s : State) : Word × State :=
  (base + zext16 idx, chargeIfCrossed base (base + zext16 idx) (fetchWord s))

/-- Absolute,X, read variant (R134). -/
def absoluteX (base : Word) (s : State) : Word × State := absoluteIndexed base s.X s

/-- Absolute,Y, read variant (R134). -/
def absoluteY (base : Word) (s : State) : Word × State := absoluteIndexed base s.Y s

/-- Absolute indexed, store variant: always a cycle more (R135). -/
def absoluteIndexedStore (base : Word) (idx : Byte) (s : State) : Word × State :=
  (base + zext16 idx, internal 1 (fetchWord s))

/-- Absolute,X, store variant (R135). -/
def absoluteXStore (base : Word) (s : State) : Word × State := absoluteIndexedStore base s.X s

/-- Absolute,Y, store variant (R135). -/
def absoluteYStore (base : Word) (s : State) : Word × State := absoluteIndexedStore base s.Y s

/-- Indirect, of JMP only: the word at the pointer, 2 cycles for its read (R136). -/
def indirect (ptr : Word) (s : State) : Word × State := (jmpPointer s.mem ptr, charge 2 (fetchWord s))

/-- (Indirect,X): the pointer at zp + X, wrapped modulo 256 (R137). -/
def indirectX (zp : Byte) (s : State) : Word × State :=
  (zpPointer s.mem (zp + s.X), charge 2 (internal 1 (fetchByte s)))

/-- The base address of (indirect),Y: the word at the zero-page pointer (R138, R139). -/
def indirectYBase (zp : Byte) (s : State) : Word × State := (zpPointer s.mem zp, charge 2 (fetchByte s))

/-- (Indirect),Y, read variant: a cycle more on a page cross (R138). -/
def indirectY (zp : Byte) (s : State) : Word × State :=
  let base := indirectYBase zp s
  (base.1 + zext16 s.Y, chargeIfCrossed base.1 (base.1 + zext16 s.Y) base.2)

/-- (Indirect),Y, store variant: always a cycle more (R139). -/
def indirectYStore (zp : Byte) (s : State) : Word × State :=
  let base := indirectYBase zp s
  (base.1 + zext16 s.Y, internal 1 base.2)

/-- Relative: always fetches the offset; a taken branch adds it to the PC of the next instruction, with a cycle for being
taken and one more on a page cross (R140, R240). -/
def relative (taken : Bool) (off : Byte) (s : State) : State :=
  let t := fetchByte s
  if taken then chargeIfCrossed t.PC (t.PC + sext16 off) (internal 1 { t with PC := t.PC + sext16 off }) else t

/-- `M <- MemRead(EA, 1)` after the mode (R143). -/
def readOperand (ea : Word × State) : Byte × State := memRead1 ea.1 ea.2

end Sys2Proof.Machine
end

