-- ==== Sys2Proof/Machine/ControlFlow.lean ====
section
/-! DEFINITION. Branches, jumps, subroutines and NOP (46_control_flow.md R240 to R254). -/

namespace Sys2Proof.Machine

/-! ### Shared operations of the family -/

/-- A conditional branch: taken where the flag has the value `want` (R240). -/
def branchIf (f : Flag) (want : Bool) (off : Byte) (s : State) : State :=
  relative (getFlag s.P f == want) off (fetchOpcode s)

/-- PC takes the effective address; no memory is read there (R133, R249). -/
def jumpTo (ea : Word × State) : State := { ea.2 with PC := ea.1 }

/-- JSR: fetch the target, push the address of the JSR's last byte, one cycle, jump (R250). -/
def callSubroutine (target : Word) (s : State) : State :=
  let t := absolute target s
  { internal 1 (pushWord (t.2.PC - 1) t.2) with PC := t.1 }

/-- RTS: pull a word, three cycles, continue one past it (R251). -/
def returnFromSubroutine (s : State) : State :=
  let w := pullWord s
  { internal 3 w.2 with PC := w.1 + 1 }

/-! ### The instructions -/

/-- `BPL *+d` (R241, R140). -/
def execBpl (off : Byte) (s : State) : Outcome :=
  .next (branchIf .N false off s)

/-- `BMI *+d` (R242, R140). -/
def execBmi (off : Byte) (s : State) : Outcome :=
  .next (branchIf .N true off s)

/-- `BVC *+d` (R243, R140). -/
def execBvc (off : Byte) (s : State) : Outcome :=
  .next (branchIf .V false off s)

/-- `BVS *+d` (R244, R140). -/
def execBvs (off : Byte) (s : State) : Outcome :=
  .next (branchIf .V true off s)

/-- `BCC *+d` (R245, R140). -/
def execBcc (off : Byte) (s : State) : Outcome :=
  .next (branchIf .C false off s)

/-- `BCS *+d` (R246, R140). -/
def execBcs (off : Byte) (s : State) : Outcome :=
  .next (branchIf .C true off s)

/-- `BNE *+d` (R247, R140). -/
def execBne (off : Byte) (s : State) : Outcome :=
  .next (branchIf .Z false off s)

/-- `BEQ *+d` (R248, R140). -/
def execBeq (off : Byte) (s : State) : Outcome :=
  .next (branchIf .Z true off s)

/-- `JMP $nnnn` (R249, R133). -/
def execJmpAbs (addr : Word) (s : State) : Outcome :=
  .next (jumpTo (absolute addr (fetchOpcode s)))

/-- `JMP ($nnnn)` (R249, R136). -/
def execJmpInd (ptr : Word) (s : State) : Outcome :=
  .next (jumpTo (indirect ptr (fetchOpcode s)))

/-- `JSR $nnnn` (R250, R133). -/
def execJsr (addr : Word) (s : State) : Outcome :=
  .next (callSubroutine addr (fetchOpcode s))

/-- `RTS` (R251, R142). -/
def execRts (s : State) : Outcome :=
  .next (returnFromSubroutine (fetchOpcode s))

/-- `NOP` (R252, R142). -/
def execNop (s : State) : Outcome :=
  .next (internal 1 (fetchOpcode s))

end Sys2Proof.Machine
end

