-- ==== Sys2Proof/Machine/FlagOps.lean ====
section
/-! DEFINITION. Flag set and clear (45_flag_ops.md R230 to R236). -/

namespace Sys2Proof.Machine

/-- Sets or clears exactly one flag, with one cycle after the opcode fetch (45_flag_ops.md, the family's contract). -/
def assignFlag (f : Flag) (v : Bool) (s : State) : State := writeFlag f v (internal 1 (fetchOpcode s))

/-- `CLC` (R230, R142). -/
def execClc (s : State) : Outcome :=
  .next (assignFlag .C false s)

/-- `SEC` (R231, R142). -/
def execSec (s : State) : Outcome :=
  .next (assignFlag .C true s)

/-- `CLI` (R232, R142). -/
def execCli (s : State) : Outcome :=
  .next (assignFlag .I false s)

/-- `SEI` (R233, R142). -/
def execSei (s : State) : Outcome :=
  .next (assignFlag .I true s)

/-- `CLV` (R234, R142). -/
def execClv (s : State) : Outcome :=
  .next (assignFlag .V false s)

/-- `CLD` (R235, R142). -/
def execCld (s : State) : Outcome :=
  .next (assignFlag .D false s)

/-- `SED` (R236, R142). -/
def execSed (s : State) : Outcome :=
  .next (assignFlag .D true s)

end Sys2Proof.Machine
end

