-- ==== Sys2Proof/Machine/IncDecAdc.lean ====
section
/-! DEFINITION. Increment, decrement and add with carry (44_incdec_adc.md R210 to R219). -/

namespace Sys2Proof.Machine

/-! ### Shared operations of the family -/

/-- Read-modify-write of the byte at the effective address: read, ALU step, write, assignment flags (R212, R213). -/
def modifyAt (f : Byte → Byte) (ea : Word × State) : State :=
  let v := memRead1 ea.1 ea.2
  setZN (f v.1) (memWrite1 ea.1 (f v.1) (internal 1 v.2))

/-- The state in which X or Y is changed: past the opcode, with the ALU step's cycle charged (R214 to R217). -/
def afterAluCycle (s : State) : State := internal 1 (fetchOpcode s)

/-- Adds the operand and the carry into A and sets C, V, Z and N (R218). -/
def addWithCarry (m : Byte × State) : State :=
  let sum := adc8 m.2.A m.1 (getFlag m.2.P .C)
  setZN sum.r (writeFlag .V sum.v (writeFlag .C sum.cout { m.2 with A := sum.r }))

/-! ### The instructions -/

/-- `INC $nn` (R212, R131). -/
def execIncZp (zp : Byte) (s : State) : Outcome :=
  .next (modifyAt inc8 (zeroPage zp (fetchOpcode s)))

/-- `INC $nn,X` (R212, R132). -/
def execIncZpX (zp : Byte) (s : State) : Outcome :=
  .next (modifyAt inc8 (zeroPageX zp (fetchOpcode s)))

/-- `INC $nnnn` (R212, R133). -/
def execIncAbs (addr : Word) (s : State) : Outcome :=
  .next (modifyAt inc8 (absolute addr (fetchOpcode s)))

/-- `INC $nnnn,X` (R212, R135). -/
def execIncAbsX (addr : Word) (s : State) : Outcome :=
  .next (modifyAt inc8 (absoluteXStore addr (fetchOpcode s)))

/-- `DEC $nn` (R213, R131). -/
def execDecZp (zp : Byte) (s : State) : Outcome :=
  .next (modifyAt dec8 (zeroPage zp (fetchOpcode s)))

/-- `DEC $nn,X` (R213, R132). -/
def execDecZpX (zp : Byte) (s : State) : Outcome :=
  .next (modifyAt dec8 (zeroPageX zp (fetchOpcode s)))

/-- `DEC $nnnn` (R213, R133). -/
def execDecAbs (addr : Word) (s : State) : Outcome :=
  .next (modifyAt dec8 (absolute addr (fetchOpcode s)))

/-- `DEC $nnnn,X` (R213, R135). -/
def execDecAbsX (addr : Word) (s : State) : Outcome :=
  .next (modifyAt dec8 (absoluteXStore addr (fetchOpcode s)))

/-- `INX` (R214, R142). -/
def execInx (s : State) : Outcome :=
  .next (setZN (inc8 s.X) { afterAluCycle s with X := inc8 s.X })

/-- `INY` (R215, R142). -/
def execIny (s : State) : Outcome :=
  .next (setZN (inc8 s.Y) { afterAluCycle s with Y := inc8 s.Y })

/-- `DEX` (R216, R142). -/
def execDex (s : State) : Outcome :=
  .next (setZN (dec8 s.X) { afterAluCycle s with X := dec8 s.X })

/-- `DEY` (R217, R142). -/
def execDey (s : State) : Outcome :=
  .next (setZN (dec8 s.Y) { afterAluCycle s with Y := dec8 s.Y })

/-- `ADC #$nn` (R218, R130). -/
def execAdcImm (imm : Byte) (s : State) : Outcome :=
  .next (addWithCarry (immediate imm (fetchOpcode s)))

/-- `ADC $nn` (R218, R131). -/
def execAdcZp (zp : Byte) (s : State) : Outcome :=
  .next (addWithCarry (readOperand (zeroPage zp (fetchOpcode s))))

/-- `ADC $nn,X` (R218, R132). -/
def execAdcZpX (zp : Byte) (s : State) : Outcome :=
  .next (addWithCarry (readOperand (zeroPageX zp (fetchOpcode s))))

/-- `ADC $nnnn` (R218, R133). -/
def execAdcAbs (addr : Word) (s : State) : Outcome :=
  .next (addWithCarry (readOperand (absolute addr (fetchOpcode s))))

/-- `ADC $nnnn,X` (R218, R134). -/
def execAdcAbsX (addr : Word) (s : State) : Outcome :=
  .next (addWithCarry (readOperand (absoluteX addr (fetchOpcode s))))

/-- `ADC $nnnn,Y` (R218, R134). -/
def execAdcAbsY (addr : Word) (s : State) : Outcome :=
  .next (addWithCarry (readOperand (absoluteY addr (fetchOpcode s))))

/-- `ADC ($nn,X)` (R218, R137). -/
def execAdcIndX (zp : Byte) (s : State) : Outcome :=
  .next (addWithCarry (readOperand (indirectX zp (fetchOpcode s))))

/-- `ADC ($nn),Y` (R218, R138). -/
def execAdcIndY (zp : Byte) (s : State) : Outcome :=
  .next (addWithCarry (readOperand (indirectY zp (fetchOpcode s))))

end Sys2Proof.Machine
end

