-- ==== Sys2Proof/Machine/LoadStore.lean ====
section
/-! DEFINITION. Load and store (41_load_store.md R160 to R165). -/

namespace Sys2Proof.Machine

/-! ### Shared operations of the family -/

/-- A load into A: the operand, with assignment flags (R160). -/
def loadA (m : Byte × State) : State := setZN m.1 { m.2 with A := m.1 }

/-- A load into X (R161). -/
def loadX (m : Byte × State) : State := setZN m.1 { m.2 with X := m.1 }

/-- A load into Y (R162). -/
def loadY (m : Byte × State) : State := setZN m.1 { m.2 with Y := m.1 }

/-- A store of a register at the effective address; no flags (R163 to R165). -/
def storeAt (v : Byte) (ea : Word × State) : State := memWrite1 ea.1 v ea.2

/-! ### The instructions -/

/-- `LDA #$nn` (R160, R130). -/
def execLdaImm (imm : Byte) (s : State) : Outcome :=
  .next (loadA (immediate imm (fetchOpcode s)))

/-- `LDA $nn` (R160, R131). -/
def execLdaZp (zp : Byte) (s : State) : Outcome :=
  .next (loadA (readOperand (zeroPage zp (fetchOpcode s))))

/-- `LDA $nn,X` (R160, R132). -/
def execLdaZpX (zp : Byte) (s : State) : Outcome :=
  .next (loadA (readOperand (zeroPageX zp (fetchOpcode s))))

/-- `LDA $nnnn` (R160, R133). -/
def execLdaAbs (addr : Word) (s : State) : Outcome :=
  .next (loadA (readOperand (absolute addr (fetchOpcode s))))

/-- `LDA $nnnn,X` (R160, R134). -/
def execLdaAbsX (addr : Word) (s : State) : Outcome :=
  .next (loadA (readOperand (absoluteX addr (fetchOpcode s))))

/-- `LDA $nnnn,Y` (R160, R134). -/
def execLdaAbsY (addr : Word) (s : State) : Outcome :=
  .next (loadA (readOperand (absoluteY addr (fetchOpcode s))))

/-- `LDA ($nn,X)` (R160, R137). -/
def execLdaIndX (zp : Byte) (s : State) : Outcome :=
  .next (loadA (readOperand (indirectX zp (fetchOpcode s))))

/-- `LDA ($nn),Y` (R160, R138). -/
def execLdaIndY (zp : Byte) (s : State) : Outcome :=
  .next (loadA (readOperand (indirectY zp (fetchOpcode s))))

/-- `LDX #$nn` (R161, R130). -/
def execLdxImm (imm : Byte) (s : State) : Outcome :=
  .next (loadX (immediate imm (fetchOpcode s)))

/-- `LDX $nn` (R161, R131). -/
def execLdxZp (zp : Byte) (s : State) : Outcome :=
  .next (loadX (readOperand (zeroPage zp (fetchOpcode s))))

/-- `LDX $nn,Y` (R161, R132). -/
def execLdxZpY (zp : Byte) (s : State) : Outcome :=
  .next (loadX (readOperand (zeroPageY zp (fetchOpcode s))))

/-- `LDX $nnnn` (R161, R133). -/
def execLdxAbs (addr : Word) (s : State) : Outcome :=
  .next (loadX (readOperand (absolute addr (fetchOpcode s))))

/-- `LDX $nnnn,Y` (R161, R134). -/
def execLdxAbsY (addr : Word) (s : State) : Outcome :=
  .next (loadX (readOperand (absoluteY addr (fetchOpcode s))))

/-- `LDY #$nn` (R162, R130). -/
def execLdyImm (imm : Byte) (s : State) : Outcome :=
  .next (loadY (immediate imm (fetchOpcode s)))

/-- `LDY $nn` (R162, R131). -/
def execLdyZp (zp : Byte) (s : State) : Outcome :=
  .next (loadY (readOperand (zeroPage zp (fetchOpcode s))))

/-- `LDY $nn,X` (R162, R132). -/
def execLdyZpX (zp : Byte) (s : State) : Outcome :=
  .next (loadY (readOperand (zeroPageX zp (fetchOpcode s))))

/-- `LDY $nnnn` (R162, R133). -/
def execLdyAbs (addr : Word) (s : State) : Outcome :=
  .next (loadY (readOperand (absolute addr (fetchOpcode s))))

/-- `LDY $nnnn,X` (R162, R134). -/
def execLdyAbsX (addr : Word) (s : State) : Outcome :=
  .next (loadY (readOperand (absoluteX addr (fetchOpcode s))))

/-- `STA $nn` (R163, R131). -/
def execStaZp (zp : Byte) (s : State) : Outcome :=
  .next (storeAt s.A (zeroPage zp (fetchOpcode s)))

/-- `STA $nn,X` (R163, R132). -/
def execStaZpX (zp : Byte) (s : State) : Outcome :=
  .next (storeAt s.A (zeroPageX zp (fetchOpcode s)))

/-- `STA $nnnn` (R163, R133). -/
def execStaAbs (addr : Word) (s : State) : Outcome :=
  .next (storeAt s.A (absolute addr (fetchOpcode s)))

/-- `STA $nnnn,X` (R163, R135). -/
def execStaAbsX (addr : Word) (s : State) : Outcome :=
  .next (storeAt s.A (absoluteXStore addr (fetchOpcode s)))

/-- `STA $nnnn,Y` (R163, R135). -/
def execStaAbsY (addr : Word) (s : State) : Outcome :=
  .next (storeAt s.A (absoluteYStore addr (fetchOpcode s)))

/-- `STA ($nn,X)` (R163, R137). -/
def execStaIndX (zp : Byte) (s : State) : Outcome :=
  .next (storeAt s.A (indirectX zp (fetchOpcode s)))

/-- `STA ($nn),Y` (R163, R139). -/
def execStaIndY (zp : Byte) (s : State) : Outcome :=
  .next (storeAt s.A (indirectYStore zp (fetchOpcode s)))

/-- `STX $nn` (R164, R131). -/
def execStxZp (zp : Byte) (s : State) : Outcome :=
  .next (storeAt s.X (zeroPage zp (fetchOpcode s)))

/-- `STX $nn,Y` (R164, R132). -/
def execStxZpY (zp : Byte) (s : State) : Outcome :=
  .next (storeAt s.X (zeroPageY zp (fetchOpcode s)))

/-- `STX $nnnn` (R164, R133). -/
def execStxAbs (addr : Word) (s : State) : Outcome :=
  .next (storeAt s.X (absolute addr (fetchOpcode s)))

/-- `STY $nn` (R165, R131). -/
def execStyZp (zp : Byte) (s : State) : Outcome :=
  .next (storeAt s.Y (zeroPage zp (fetchOpcode s)))

/-- `STY $nn,X` (R165, R132). -/
def execStyZpX (zp : Byte) (s : State) : Outcome :=
  .next (storeAt s.Y (zeroPageX zp (fetchOpcode s)))

/-- `STY $nnnn` (R165, R133). -/
def execStyAbs (addr : Word) (s : State) : Outcome :=
  .next (storeAt s.Y (absolute addr (fetchOpcode s)))

end Sys2Proof.Machine
end

