-- ==== Sys2Proof/Machine/Logical.lean ====
section
/-! DEFINITION. Logical instructions and BIT (42_logical.md R180 to R183). -/

namespace Sys2Proof.Machine

/-! ### Shared operations of the family -/

/-- Combines the operand into A and sets the assignment flags (R180 to R182). -/
def combineA (f : Byte → Byte → Byte) (m : Byte × State) : State :=
  setZN (f m.2.A m.1) { m.2 with A := f m.2.A m.1 }

/-- Bit test: Z from A and the operand, N and V from the operand alone; A is unchanged (R183). -/
def bitTest (m : Byte × State) : State :=
  writeFlag .V (m.1.getLsbD 6) (writeFlag .N (m.1.getLsbD 7) (writeFlag .Z ((m.2.A &&& m.1) == 0x00#8) m.2))

/-! ### The instructions -/

/-- `AND #$nn` (R180, R130). -/
def execAndImm (imm : Byte) (s : State) : Outcome :=
  .next (combineA (· &&& ·) (immediate imm (fetchOpcode s)))

/-- `AND $nn` (R180, R131). -/
def execAndZp (zp : Byte) (s : State) : Outcome :=
  .next (combineA (· &&& ·) (readOperand (zeroPage zp (fetchOpcode s))))

/-- `AND $nn,X` (R180, R132). -/
def execAndZpX (zp : Byte) (s : State) : Outcome :=
  .next (combineA (· &&& ·) (readOperand (zeroPageX zp (fetchOpcode s))))

/-- `AND $nnnn` (R180, R133). -/
def execAndAbs (addr : Word) (s : State) : Outcome :=
  .next (combineA (· &&& ·) (readOperand (absolute addr (fetchOpcode s))))

/-- `AND $nnnn,X` (R180, R134). -/
def execAndAbsX (addr : Word) (s : State) : Outcome :=
  .next (combineA (· &&& ·) (readOperand (absoluteX addr (fetchOpcode s))))

/-- `AND $nnnn,Y` (R180, R134). -/
def execAndAbsY (addr : Word) (s : State) : Outcome :=
  .next (combineA (· &&& ·) (readOperand (absoluteY addr (fetchOpcode s))))

/-- `AND ($nn,X)` (R180, R137). -/
def execAndIndX (zp : Byte) (s : State) : Outcome :=
  .next (combineA (· &&& ·) (readOperand (indirectX zp (fetchOpcode s))))

/-- `AND ($nn),Y` (R180, R138). -/
def execAndIndY (zp : Byte) (s : State) : Outcome :=
  .next (combineA (· &&& ·) (readOperand (indirectY zp (fetchOpcode s))))

/-- `ORA #$nn` (R181, R130). -/
def execOraImm (imm : Byte) (s : State) : Outcome :=
  .next (combineA (· ||| ·) (immediate imm (fetchOpcode s)))

/-- `ORA $nn` (R181, R131). -/
def execOraZp (zp : Byte) (s : State) : Outcome :=
  .next (combineA (· ||| ·) (readOperand (zeroPage zp (fetchOpcode s))))

/-- `ORA $nn,X` (R181, R132). -/
def execOraZpX (zp : Byte) (s : State) : Outcome :=
  .next (combineA (· ||| ·) (readOperand (zeroPageX zp (fetchOpcode s))))

/-- `ORA $nnnn` (R181, R133). -/
def execOraAbs (addr : Word) (s : State) : Outcome :=
  .next (combineA (· ||| ·) (readOperand (absolute addr (fetchOpcode s))))

/-- `ORA $nnnn,X` (R181, R134). -/
def execOraAbsX (addr : Word) (s : State) : Outcome :=
  .next (combineA (· ||| ·) (readOperand (absoluteX addr (fetchOpcode s))))

/-- `ORA $nnnn,Y` (R181, R134). -/
def execOraAbsY (addr : Word) (s : State) : Outcome :=
  .next (combineA (· ||| ·) (readOperand (absoluteY addr (fetchOpcode s))))

/-- `ORA ($nn,X)` (R181, R137). -/
def execOraIndX (zp : Byte) (s : State) : Outcome :=
  .next (combineA (· ||| ·) (readOperand (indirectX zp (fetchOpcode s))))

/-- `ORA ($nn),Y` (R181, R138). -/
def execOraIndY (zp : Byte) (s : State) : Outcome :=
  .next (combineA (· ||| ·) (readOperand (indirectY zp (fetchOpcode s))))

/-- `EOR #$nn` (R182, R130). -/
def execEorImm (imm : Byte) (s : State) : Outcome :=
  .next (combineA (· ^^^ ·) (immediate imm (fetchOpcode s)))

/-- `EOR $nn` (R182, R131). -/
def execEorZp (zp : Byte) (s : State) : Outcome :=
  .next (combineA (· ^^^ ·) (readOperand (zeroPage zp (fetchOpcode s))))

/-- `EOR $nn,X` (R182, R132). -/
def execEorZpX (zp : Byte) (s : State) : Outcome :=
  .next (combineA (· ^^^ ·) (readOperand (zeroPageX zp (fetchOpcode s))))

/-- `EOR $nnnn` (R182, R133). -/
def execEorAbs (addr : Word) (s : State) : Outcome :=
  .next (combineA (· ^^^ ·) (readOperand (absolute addr (fetchOpcode s))))

/-- `EOR $nnnn,X` (R182, R134). -/
def execEorAbsX (addr : Word) (s : State) : Outcome :=
  .next (combineA (· ^^^ ·) (readOperand (absoluteX addr (fetchOpcode s))))

/-- `EOR $nnnn,Y` (R182, R134). -/
def execEorAbsY (addr : Word) (s : State) : Outcome :=
  .next (combineA (· ^^^ ·) (readOperand (absoluteY addr (fetchOpcode s))))

/-- `EOR ($nn,X)` (R182, R137). -/
def execEorIndX (zp : Byte) (s : State) : Outcome :=
  .next (combineA (· ^^^ ·) (readOperand (indirectX zp (fetchOpcode s))))

/-- `EOR ($nn),Y` (R182, R138). -/
def execEorIndY (zp : Byte) (s : State) : Outcome :=
  .next (combineA (· ^^^ ·) (readOperand (indirectY zp (fetchOpcode s))))

/-- `BIT $nn` (R183, R131). -/
def execBitZp (zp : Byte) (s : State) : Outcome :=
  .next (bitTest (readOperand (zeroPage zp (fetchOpcode s))))

/-- `BIT $nnnn` (R183, R133). -/
def execBitAbs (addr : Word) (s : State) : Outcome :=
  .next (bitTest (readOperand (absolute addr (fetchOpcode s))))

end Sys2Proof.Machine
end

