-- ==== Sys2Proof/Machine/TransferStack.lean ====
section
/-! DEFINITION. Transfer and stack instructions (43_transfer_stack.md R190 to R199). -/

namespace Sys2Proof.Machine

/-! ### Shared operations of the family -/

/-- A transfer's fixed cycle after the opcode fetch (R190 to R195). -/
def afterTransferCycle (s : State) : State := internal 1 (fetchOpcode s)

/-- PLA's end: the pulled byte into A, two internal cycles, assignment flags (R198). -/
def pulledIntoA (v : Byte × State) : State := setZN v.1 (internal 2 { v.2 with A := v.1 })

/-- PLP's end: two internal cycles, then P from the pulled byte but for bits 4 and 5 (R199). -/
def pulledIntoP (v : Byte × State) : State := internal 2 { v.2 with P := pulledP v.2.P v.1 }

/-! ### The instructions -/

/-- `TAX` (R190, R142). -/
def execTax (s : State) : Outcome :=
  .next (setZN s.A { afterTransferCycle s with X := s.A })

/-- `TAY` (R191, R142). -/
def execTay (s : State) : Outcome :=
  .next (setZN s.A { afterTransferCycle s with Y := s.A })

/-- `TXA` (R192, R142). -/
def execTxa (s : State) : Outcome :=
  .next (setZN s.X { afterTransferCycle s with A := s.X })

/-- `TYA` (R193, R142). -/
def execTya (s : State) : Outcome :=
  .next (setZN s.Y { afterTransferCycle s with A := s.Y })

/-- `TSX` (R194, R142). -/
def execTsx (s : State) : Outcome :=
  .next (setZN s.SP { afterTransferCycle s with X := s.SP })

/-- `TXS` (R195, R142). -/
def execTxs (s : State) : Outcome :=
  .next ({ afterTransferCycle s with SP := s.X })

/-- `PHA` (R196, R142). -/
def execPha (s : State) : Outcome :=
  .next (internal 1 (pushByte s.A (fetchOpcode s)))

/-- `PHP` (R197, R142). -/
def execPhp (s : State) : Outcome :=
  .next (internal 1 (pushByte (pushedP s.P) (fetchOpcode s)))

/-- `PLA` (R198, R142). -/
def execPla (s : State) : Outcome :=
  .next (pulledIntoA (pullByte (fetchOpcode s)))

/-- `PLP` (R199, R142). -/
def execPlp (s : State) : Outcome :=
  .next (pulledIntoP (pullByte (fetchOpcode s)))

end Sys2Proof.Machine
end

