-- ==== Sys2Proof/Machine/Dispatch.lean ====
section
/-! DEFINITION. One arm per constructor of Instr, each one direct call of its meaning. -/

namespace Sys2Proof.Machine

def exec (i : Instr) (s : State) : Host.Outcome State Fault Refusal :=
  match i with
  | .ldaImm imm => Sys2Proof.Machine.execLdaImm imm s
  | .ldaZp zp => Sys2Proof.Machine.execLdaZp zp s
  | .ldaZpX zp => Sys2Proof.Machine.execLdaZpX zp s
  | .ldaAbs addr => Sys2Proof.Machine.execLdaAbs addr s
  | .ldaAbsX addr => Sys2Proof.Machine.execLdaAbsX addr s
  | .ldaAbsY addr => Sys2Proof.Machine.execLdaAbsY addr s
  | .ldaIndX zp => Sys2Proof.Machine.execLdaIndX zp s
  | .ldaIndY zp => Sys2Proof.Machine.execLdaIndY zp s
  | .ldxImm imm => Sys2Proof.Machine.execLdxImm imm s
  | .ldxZp zp => Sys2Proof.Machine.execLdxZp zp s
  | .ldxZpY zp => Sys2Proof.Machine.execLdxZpY zp s
  | .ldxAbs addr => Sys2Proof.Machine.execLdxAbs addr s
  | .ldxAbsY addr => Sys2Proof.Machine.execLdxAbsY addr s
  | .ldyImm imm => Sys2Proof.Machine.execLdyImm imm s
  | .ldyZp zp => Sys2Proof.Machine.execLdyZp zp s
  | .ldyZpX zp => Sys2Proof.Machine.execLdyZpX zp s
  | .ldyAbs addr => Sys2Proof.Machine.execLdyAbs addr s
  | .ldyAbsX addr => Sys2Proof.Machine.execLdyAbsX addr s
  | .staZp zp => Sys2Proof.Machine.execStaZp zp s
  | .staZpX zp => Sys2Proof.Machine.execStaZpX zp s
  | .staAbs addr => Sys2Proof.Machine.execStaAbs addr s
  | .staAbsX addr => Sys2Proof.Machine.execStaAbsX addr s
  | .staAbsY addr => Sys2Proof.Machine.execStaAbsY addr s
  | .staIndX zp => Sys2Proof.Machine.execStaIndX zp s
  | .staIndY zp => Sys2Proof.Machine.execStaIndY zp s
  | .stxZp zp => Sys2Proof.Machine.execStxZp zp s
  | .stxZpY zp => Sys2Proof.Machine.execStxZpY zp s
  | .stxAbs addr => Sys2Proof.Machine.execStxAbs addr s
  | .styZp zp => Sys2Proof.Machine.execStyZp zp s
  | .styZpX zp => Sys2Proof.Machine.execStyZpX zp s
  | .styAbs addr => Sys2Proof.Machine.execStyAbs addr s
  | .andImm imm => Sys2Proof.Machine.execAndImm imm s
  | .andZp zp => Sys2Proof.Machine.execAndZp zp s
  | .andZpX zp => Sys2Proof.Machine.execAndZpX zp s
  | .andAbs addr => Sys2Proof.Machine.execAndAbs addr s
  | .andAbsX addr => Sys2Proof.Machine.execAndAbsX addr s
  | .andAbsY addr => Sys2Proof.Machine.execAndAbsY addr s
  | .andIndX zp => Sys2Proof.Machine.execAndIndX zp s
  | .andIndY zp => Sys2Proof.Machine.execAndIndY zp s
  | .oraImm imm => Sys2Proof.Machine.execOraImm imm s
  | .oraZp zp => Sys2Proof.Machine.execOraZp zp s
  | .oraZpX zp => Sys2Proof.Machine.execOraZpX zp s
  | .oraAbs addr => Sys2Proof.Machine.execOraAbs addr s
  | .oraAbsX addr => Sys2Proof.Machine.execOraAbsX addr s
  | .oraAbsY addr => Sys2Proof.Machine.execOraAbsY addr s
  | .oraIndX zp => Sys2Proof.Machine.execOraIndX zp s
  | .oraIndY zp => Sys2Proof.Machine.execOraIndY zp s
  | .eorImm imm => Sys2Proof.Machine.execEorImm imm s
  | .eorZp zp => Sys2Proof.Machine.execEorZp zp s
  | .eorZpX zp => Sys2Proof.Machine.execEorZpX zp s
  | .eorAbs addr => Sys2Proof.Machine.execEorAbs addr s
  | .eorAbsX addr => Sys2Proof.Machine.execEorAbsX addr s
  | .eorAbsY addr => Sys2Proof.Machine.execEorAbsY addr s
  | .eorIndX zp => Sys2Proof.Machine.execEorIndX zp s
  | .eorIndY zp => Sys2Proof.Machine.execEorIndY zp s
  | .bitZp zp => Sys2Proof.Machine.execBitZp zp s
  | .bitAbs addr => Sys2Proof.Machine.execBitAbs addr s
  | .tax => Sys2Proof.Machine.execTax s
  | .tay => Sys2Proof.Machine.execTay s
  | .txa => Sys2Proof.Machine.execTxa s
  | .tya => Sys2Proof.Machine.execTya s
  | .tsx => Sys2Proof.Machine.execTsx s
  | .txs => Sys2Proof.Machine.execTxs s
  | .pha => Sys2Proof.Machine.execPha s
  | .php => Sys2Proof.Machine.execPhp s
  | .pla => Sys2Proof.Machine.execPla s
  | .plp => Sys2Proof.Machine.execPlp s
  | .incZp zp => Sys2Proof.Machine.execIncZp zp s
  | .incZpX zp => Sys2Proof.Machine.execIncZpX zp s
  | .incAbs addr => Sys2Proof.Machine.execIncAbs addr s
  | .incAbsX addr => Sys2Proof.Machine.execIncAbsX addr s
  | .decZp zp => Sys2Proof.Machine.execDecZp zp s
  | .decZpX zp => Sys2Proof.Machine.execDecZpX zp s
  | .decAbs addr => Sys2Proof.Machine.execDecAbs addr s
  | .decAbsX addr => Sys2Proof.Machine.execDecAbsX addr s
  | .inx => Sys2Proof.Machine.execInx s
  | .iny => Sys2Proof.Machine.execIny s
  | .dex => Sys2Proof.Machine.execDex s
  | .dey => Sys2Proof.Machine.execDey s
  | .adcImm imm => Sys2Proof.Machine.execAdcImm imm s
  | .adcZp zp => Sys2Proof.Machine.execAdcZp zp s
  | .adcZpX zp => Sys2Proof.Machine.execAdcZpX zp s
  | .adcAbs addr => Sys2Proof.Machine.execAdcAbs addr s
  | .adcAbsX addr => Sys2Proof.Machine.execAdcAbsX addr s
  | .adcAbsY addr => Sys2Proof.Machine.execAdcAbsY addr s
  | .adcIndX zp => Sys2Proof.Machine.execAdcIndX zp s
  | .adcIndY zp => Sys2Proof.Machine.execAdcIndY zp s
  | .clc => Sys2Proof.Machine.execClc s
  | .sec => Sys2Proof.Machine.execSec s
  | .cli => Sys2Proof.Machine.execCli s
  | .sei => Sys2Proof.Machine.execSei s
  | .clv => Sys2Proof.Machine.execClv s
  | .cld => Sys2Proof.Machine.execCld s
  | .sed => Sys2Proof.Machine.execSed s
  | .bpl off => Sys2Proof.Machine.execBpl off s
  | .bmi off => Sys2Proof.Machine.execBmi off s
  | .bvc off => Sys2Proof.Machine.execBvc off s
  | .bvs off => Sys2Proof.Machine.execBvs off s
  | .bcc off => Sys2Proof.Machine.execBcc off s
  | .bcs off => Sys2Proof.Machine.execBcs off s
  | .bne off => Sys2Proof.Machine.execBne off s
  | .beq off => Sys2Proof.Machine.execBeq off s
  | .jmpAbs addr => Sys2Proof.Machine.execJmpAbs addr s
  | .jmpInd ptr => Sys2Proof.Machine.execJmpInd ptr s
  | .jsr addr => Sys2Proof.Machine.execJsr addr s
  | .rts => Sys2Proof.Machine.execRts s
  | .nop => Sys2Proof.Machine.execNop s

end Sys2Proof.Machine
end

