-- ==== Sys2Proof/Machine/Step.lean ====
section
/-! DEFINITION. One step: the body of the execute loop past its budget check (40_fetch_and_addressing.md R126,
log 4), and how an instruction is placed where it is fetched. -/

namespace Sys2Proof.Machine

/-- Fetch, decode and perform one instruction; an unrecognized opcode raises the fault before anything changes (R126, R262). -/
def step (s : State) : Host.Outcome State Fault Refusal :=
  match decode (fetchWindow s) with
  | .ok (i, _) => exec i s
  | .error _ => raiseUnknownOpcode s

/-- `s` with the table word's bytes stored at PC, where `step` fetches. It stands for the host's program load (R296, R297; log 7). -/
def State.withFetchWord (s : State) (nbits w : Nat) : State :=
  { s with mem := s.mem.writeBytes s.PC (tableBytes nbits w) }

end Sys2Proof.Machine
end

