-- ==== Sys2Proof/WellFormed.lean ====
section
/-! DEFINITION. What the types of the syntax do not already say.

Every term of `Instr` is well formed: each operand is a byte or a word of exactly the width its format gives it
(30_encoding.md R91, R92), and the spec reserves no operand value. Three inputs around instructions do have a check: a
table word, an assembler's branch target and a program-load buffer. -/

namespace Sys2Proof

/-- Well-formedness of an instruction. Its operand fields have the widths of R91, so nothing is left to check (log 9). -/
def Instr.wf (_ : Instr) : Bool := true

/-- A table word is one to three whole bytes and fits its bits (R91, R93). -/
def tableWordWf (nbits w : Nat) : Bool := (nbits == 8 || nbits == 16 || nbits == 24) && decide (w < 2 ^ nbits)

/-- The signed distance from the instruction after a branch at `branch` to `target`, the shorter way round (R101, R240; log 10). -/
def branchDistance (branch target : Word) : Int := (target - (branch + 2)).toInt

/-- A branch target can be encoded: `target - (branch address + 2)` lies in -128..127 (R101). -/
def branchTargetWf (branch target : Word) : Bool :=
  decide (-128 ≤ branchDistance branch target) && decide (branchDistance branch target ≤ 127)

/-- A program-load body at address `v` ends inside the array: V + (length - 2) ≤ 0x10000 (R296, D21). -/
def loadBodyFits (v : Word) (body : List Byte) : Bool := decide (v.toNat + body.length ≤ 65536)

end Sys2Proof
end

