-- ==== Sys2Proof/Machine/Assembly.lean ====
section
/-! DEFINITION. Assembler syntax (30_encoding.md R101, R102, D20): the text of an instruction, as a list of
characters, and how a branch's target becomes its offset byte. No meaning of an instruction rests on it. -/

namespace Sys2Proof.Machine

/-- One hexadecimal digit, in capitals. -/
def hexDigit (n : Nat) : Char := if n < 10 then Char.ofNat (48 + n) else Char.ofNat (55 + n)

/-- Two hexadecimal digits. -/
def hexByte (b : Byte) : List Char := [hexDigit (b.toNat / 16), hexDigit (b.toNat % 16)]

/-- Four hexadecimal digits, the high byte's first. -/
def hexWord (w : Word) : List Char := hexByte (hiByte w) ++ hexByte (loByte w)

/-- The three letters of a mnemonic. -/
def mnemonicLetters : Mnemonic → List Char
  | .LDA => ['L', 'D', 'A']
  | .LDX => ['L', 'D', 'X']
  | .LDY => ['L', 'D', 'Y']
  | .STA => ['S', 'T', 'A']
  | .STX => ['S', 'T', 'X']
  | .STY => ['S', 'T', 'Y']
  | .AND => ['A', 'N', 'D']
  | .ORA => ['O', 'R', 'A']
  | .EOR => ['E', 'O', 'R']
  | .BIT => ['B', 'I', 'T']
  | .TAX => ['T', 'A', 'X']
  | .TAY => ['T', 'A', 'Y']
  | .TXA => ['T', 'X', 'A']
  | .TYA => ['T', 'Y', 'A']
  | .TSX => ['T', 'S', 'X']
  | .TXS => ['T', 'X', 'S']
  | .PHA => ['P', 'H', 'A']
  | .PHP => ['P', 'H', 'P']
  | .PLA => ['P', 'L', 'A']
  | .PLP => ['P', 'L', 'P']
  | .INC => ['I', 'N', 'C']
  | .DEC => ['D', 'E', 'C']
  | .INX => ['I', 'N', 'X']
  | .INY => ['I', 'N', 'Y']
  | .DEX => ['D', 'E', 'X']
  | .DEY => ['D', 'E', 'Y']
  | .ADC => ['A', 'D', 'C']
  | .CLC => ['C', 'L', 'C']
  | .SEC => ['S', 'E', 'C']
  | .CLI => ['C', 'L', 'I']
  | .SEI => ['S', 'E', 'I']
  | .CLV => ['C', 'L', 'V']
  | .CLD => ['C', 'L', 'D']
  | .SED => ['S', 'E', 'D']
  | .BPL => ['B', 'P', 'L']
  | .BMI => ['B', 'M', 'I']
  | .BVC => ['B', 'V', 'C']
  | .BVS => ['B', 'V', 'S']
  | .BCC => ['B', 'C', 'C']
  | .BCS => ['B', 'C', 'S']
  | .BNE => ['B', 'N', 'E']
  | .BEQ => ['B', 'E', 'Q']
  | .JMP => ['J', 'M', 'P']
  | .JSR => ['J', 'S', 'R']
  | .RTS => ['R', 'T', 'S']
  | .NOP => ['N', 'O', 'P']

/-- A branch's target: the address of the next instruction plus the signed offset (R101, R240). -/
def branchTarget (branch : Word) (off : Byte) : Word := branch + 2 + sext16 off

/-- The operand's text in each mode, from the bytes after the opcode; a branch shows its target, so it needs the
address the instruction stands at (R101). -/
def operandText (mode : Mode) (address : Word) (lo hi : Byte) : List Char :=
  match mode with
  | .implied => []
  | .immediate => '#' :: '$' :: hexByte lo
  | .zeroPage => '$' :: hexByte lo
  | .zeroPageX => '$' :: hexByte lo ++ [',', 'X']
  | .zeroPageY => '$' :: hexByte lo ++ [',', 'Y']
  | .absolute => '$' :: hexWord (wordOfBytes lo hi)
  | .absoluteX => '$' :: hexWord (wordOfBytes lo hi) ++ [',', 'X']
  | .absoluteXStore => '$' :: hexWord (wordOfBytes lo hi) ++ [',', 'X']
  | .absoluteY => '$' :: hexWord (wordOfBytes lo hi) ++ [',', 'Y']
  | .absoluteYStore => '$' :: hexWord (wordOfBytes lo hi) ++ [',', 'Y']
  | .indirect => '(' :: '$' :: hexWord (wordOfBytes lo hi) ++ [')']
  | .indirectX => '(' :: '$' :: hexByte lo ++ [',', 'X', ')']
  | .indirectY => '(' :: '$' :: hexByte lo ++ [')', ',', 'Y']
  | .indirectYStore => '(' :: '$' :: hexByte lo ++ [')', ',', 'Y']
  | .relative => '$' :: hexWord (branchTarget address lo)

/-- The text of an instruction that stands at `address`: its mnemonic, and its operand if its mode has one (R101). -/
def assemblyText (address : Word) (i : Instr) : List Char :=
  let operand := operandText i.mode address ((encode i).getD 1 0x00#8) ((encode i).getD 2 0x00#8)
  mnemonicLetters i.mnemonic ++ (if operand = [] then [] else ' ' :: operand)

/-- The offset byte of a branch at `branch` to `target`, none where the distance is not in -128..127 (R101). -/
def assembleBranch (branch target : Word) : Option Byte :=
  if branchTargetWf branch target then some (loByte (target - (branch + 2))) else none

end Sys2Proof.Machine
end

