-- ==== Sys2Proof/Machine/Execute.lean ====
section
/-! DEFINITION. The execute call: the loop around the step, its budget and its two ends
(40_fetch_and_addressing.md R126 to R129; 70_reset_and_hazards.md R303). -/

namespace Sys2Proof.Machine

/-- What an execute call returns: the state it leaves and the cycles consumed (R126, R128). -/
inductive Result where
  /-- The budget reached 0 or less at the top of the loop (R303). -/
  | done (s : State) (consumed : Int)
  /-- An unrecognized opcode was fetched; the state is the one before that fetch (R262). -/
  | fault (f : Fault) (s : State) (consumed : Int)
  /-- A step refused. No instruction of this model refuses, so this never arises; it is here because a step's type allows it. -/
  | refused (r : Refusal) (s : State) (consumed : Int)
deriving DecidableEq, Repr

/-- The state between calls: the budget exists only inside a call (R42; log 1). -/
def betweenCalls (s : State) : State := { s with budget := Config.idleBudget }

/-- The loop of R126, entered with `given` cycles in all; the first argument bounds the passes (log 8). -/
def executeLoop : Nat → Int → State → Result
  | 0, given, s => .done (betweenCalls s) (given - s.budget)
  | passes + 1, given, s =>
    if s.budget ≤ 0 then .done (betweenCalls s) (given - s.budget)
    else
      match step s with
      | .next t => executeLoop passes given t
      | .fault f => .fault f (betweenCalls s) (given - s.budget)
      | .refused r => .refused r (betweenCalls s) (given - s.budget)

/-- `execute(cycleBudget, memory)` on the state the host holds (R126). Every instruction costs at least 2 cycles (R129), so
`budget` passes are never short. -/
def execute (budget : Int) (s : State) : Result := executeLoop budget.toNat budget { s with budget := budget }

end Sys2Proof.Machine
end

