-- ==== Sys2Proof/Machine/HostCalls.lean ====
section
/-! DEFINITION. The host calls around execute: create, reset, reset-and-clear and load (70_reset_and_hazards.md
R290 to R299). The host may also replace any register or byte between calls: that is any other value of `State` (R298). -/

namespace Sys2Proof.Machine

/-- Reset of the registers only: PC from the vector, memory unchanged, no cycles charged (R290, R292). -/
def resetRegisters (s : State) : State :=
  { s with
    A := 0x00#8, X := 0x00#8, Y := 0x00#8, SP := Config.spReset, P := 0x00#8
    PC := s.mem.readWord Config.resetVector }

/-- Reset with memory clear: zero the memory, then reset the registers (R291, D13). -/
def resetAndClear (s : State) : State := resetRegisters { s with mem := s.mem.clear }

/-- Creation: a zeroed memory and a reset register file (R294, R45). The registers' values before it do not matter. -/
def create : State :=
  resetRegisters
    { A := 0x00#8, X := 0x00#8, Y := 0x00#8, SP := 0x00#8, PC := 0x0000#16, P := 0x00#8, mem := [], budget := Config.idleBudget }

/-- Load: the body copied to the address the first two bytes hold, then those two bytes written to the reset vector;
registers untouched; a short buffer or one that runs past 0xFFFF is refused (R296, D21). -/
def load (buf : List Byte) (s : State) : Outcome :=
  match buf with
  | lo :: hi :: body =>
    if loadBodyFits (wordOfBytes lo hi) body then
      let copied := s.mem.writeBytes (wordOfBytes lo hi) body
      .next { s with mem := (copied.write Config.resetVector lo).write (Config.resetVector + 1) hi }
    else .refused .loadPastEnd
  | _ => .refused .loadBufferTooShort

end Sys2Proof.Machine
end

