-- ==== Sys2Proof/Safety.lean ====
section
/-! DEFINITION. What counts as a run that goes right (60_exceptions.md R263, 70_reset_and_hazards.md R303). -/

namespace Sys2Proof.Machine

/-- The byte at PC is one of the 107 opcodes, so the next step raises nothing (R261). -/
def opcodeKnown (s : State) : Bool := (decodeOpcode (s.mem.read s.PC)).isSome

/-- An execute call that ended by its budget, the only normal end (R263, R303). -/
def Result.isDone : Result → Bool
  | .done _ _ => true
  | .fault _ _ _ => false
  | .refused _ _ _ => false

/-- The states from which `n` steps all give a next state. -/
def runsFor : Nat → State → Bool
  | 0, _ => true
  | n + 1, s =>
    match step s with
    | .next t => runsFor n t
    | .fault _ => false
    | .refused _ => false

/-- What every step keeps from any launch state that has it (log 3; R39, R298): memory in canonical form, and the two
bits of P that no instruction writes still 0. -/
structure State.Inv (s : State) : Prop where
  memCanonical : s.mem.wf
  breakAndUnusedClear : s.P &&& 0x30#8 = 0x00#8

end Sys2Proof.Machine
end

