-- ==== Sys2Proof/Certificates/Slice0/Obligations.lean ====
section
/-! DEFINITION. The statements for the provers. The helpers of Sys2Proof.Claim say results in bits, addresses and
counts of their own, so that a statement can be held beside the spec without the model's operations. -/

namespace Sys2Proof.Claim

open Sys2Proof.Machine

/-! ### Encodings (30_encoding.md R91) -/

/-- The one byte `op` decodes to `i`. -/
def Enc1 (op : Byte) (i : Instr) : Prop := decode [op] = .ok (i, [])

/-- The bytes `op b` decode to `i`. -/
def Enc2 (op b : Byte) (i : Instr) : Prop := decode [op, b] = .ok (i, [])

/-- The byte `op` and the little-endian word `w` decode to `i`. -/
def Enc3 (op : Byte) (w : Word) (i : Instr) : Prop :=
  decode [op, w.extractLsb' 0 8, w.extractLsb' 8 8] = .ok (i, [])

/-! ### Addresses and cycles (40_fetch_and_addressing.md) -/

/-- A byte as an address in page 0. -/
def zp (b : Byte) : Word := b.setWidth 16

/-- Absolute indexed: a 16-bit add (R134). -/
def indexed (base : Word) (idx : Byte) : Word := base + idx.setWidth 16

/-- The word at zero-page address `b`: its high byte is at `b +16 1`, also past 0xFF (R137, R138). -/
def pointerAt (s : State) (b : Byte) : Word := s.mem.read (zp b + 1) ++ s.mem.read (zp b)

/-- A cycle where the high bytes differ (R141). -/
def crossCost (a b : Word) : Int := if a.extractLsb' 8 8 = b.extractLsb' 8 8 then 0 else 1

/-- The stack byte of an offset (R33). -/
def stack (sp : Byte) : Word := 0x0100#16 + sp.setWidth 16

/-! ### What instructions do -/

/-- `p'` is `p` with the assignment flags of `v`: bit 1 says zero, bit 7 is bit 7, the rest are as they were (R38). -/
def AssignsZN (p p' v : Byte) : Prop :=
  p'.getLsbD 1 = decide (v = 0x00#8) ∧ p'.getLsbD 7 = v.getLsbD 7 ∧
    ∀ k, k ≠ 1 → k ≠ 7 → p'.getLsbD k = p.getLsbD k

/-- `m'` is `m` but for the byte `v` at `a`. -/
def WritesByte (m m' : Memory) (a : Word) (v : Byte) : Prop := ∀ x, m'.read x = if x = a then v else m.read x

/-- `i` ends in a next state that differs from `s` only in A = `v`, its assignment flags, PC and the cycles. -/
def LoadsA (i : Instr) (s : State) (v : Byte) (len : Word) (cycles : Int) : Prop :=
  ∃ p, AssignsZN s.P p v ∧
    exec i s = .next { s with A := v, P := p, PC := s.PC + len, budget := s.budget - cycles }

/-- The same for X. -/
def LoadsX (i : Instr) (s : State) (v : Byte) (len : Word) (cycles : Int) : Prop :=
  ∃ p, AssignsZN s.P p v ∧
    exec i s = .next { s with X := v, P := p, PC := s.PC + len, budget := s.budget - cycles }

/-- The same for Y. -/
def LoadsY (i : Instr) (s : State) (v : Byte) (len : Word) (cycles : Int) : Prop :=
  ∃ p, AssignsZN s.P p v ∧
    exec i s = .next { s with Y := v, P := p, PC := s.PC + len, budget := s.budget - cycles }

/-- `i` ends in a next state that differs from `s` only in the byte `v` at `a`, PC and the cycles. -/
def StoresAt (i : Instr) (s : State) (a : Word) (v : Byte) (len : Word) (cycles : Int) : Prop :=
  ∃ m, WritesByte s.mem m a v ∧
    exec i s = .next { s with mem := m, PC := s.PC + len, budget := s.budget - cycles }

/-- `i` replaces the byte at `a` by `v`, sets the assignment flags of `v` and changes nothing else but PC and the cycles. -/
def ModifiesAt (i : Instr) (s : State) (a : Word) (v : Byte) (len : Word) (cycles : Int) : Prop :=
  ∃ m p, WritesByte s.mem m a v ∧ AssignsZN s.P p v ∧
    exec i s = .next { s with mem := m, P := p, PC := s.PC + len, budget := s.budget - cycles }

/-- `i` adds `m` and the carry into A in binary and sets C, V, Z and N, and changes nothing else but PC and the cycles (R211). -/
def AddsIntoA (i : Instr) (s : State) (m : Byte) (len : Word) (cycles : Int) : Prop :=
  ∃ p r, r = BitVec.ofNat 8 (s.A.toNat + m.toNat + (s.P.getLsbD 0).toNat) ∧
    p.getLsbD 0 = decide (256 ≤ s.A.toNat + m.toNat + (s.P.getLsbD 0).toNat) ∧
    p.getLsbD 6 = decide (s.A.getLsbD 7 = m.getLsbD 7 ∧ r.getLsbD 7 ≠ s.A.getLsbD 7) ∧
    p.getLsbD 1 = decide (r = 0x00#8) ∧ p.getLsbD 7 = r.getLsbD 7 ∧
    (∀ k, k ∈ [2, 3, 4, 5] → p.getLsbD k = s.P.getLsbD k) ∧
    exec i s = .next { s with A := r, P := p, PC := s.PC + len, budget := s.budget - cycles }

/-- `i` tests `m` against A: Z from A & m, N and V from m, nothing else but PC and the cycles (R183). -/
def TestsBits (i : Instr) (s : State) (m : Byte) (len : Word) (cycles : Int) : Prop :=
  ∃ p, p.getLsbD 1 = decide (s.A &&& m = 0x00#8) ∧ p.getLsbD 7 = m.getLsbD 7 ∧ p.getLsbD 6 = m.getLsbD 6 ∧
    (∀ k, k ≠ 1 → k ≠ 7 → k ≠ 6 → p.getLsbD k = s.P.getLsbD k) ∧
    exec i s = .next { s with P := p, PC := s.PC + len, budget := s.budget - cycles }

/-- The one-byte instruction `i` makes bit `k` of P equal to `v` and changes nothing else but PC, in 2 cycles. -/
def AssignsFlag (i : Instr) (s : State) (k : Nat) (v : Bool) : Prop :=
  ∃ p, p.getLsbD k = v ∧ (∀ j, j ≠ k → p.getLsbD j = s.P.getLsbD j) ∧
    exec i s = .next { s with P := p, PC := s.PC + 1, budget := s.budget - 2 }

/-- `i` branches by `off` from the next instruction if `taken`, and goes on there if not; no flag or memory changes (R240). -/
def Branches (i : Instr) (s : State) (off : Byte) (taken : Prop) : Prop :=
  (taken → exec i s = .next
    { s with
      PC := s.PC + 2 + off.signExtend 16
      budget := s.budget - (3 + crossCost (s.PC + 2) (s.PC + 2 + off.signExtend 16)) }) ∧
  (¬ taken → exec i s = .next { s with PC := s.PC + 2, budget := s.budget - 2 })

/-- The eight read forms of LDA, AND, ORA, EOR and ADC, each with its opcode: `Good i s operand length cycles` holds of each. -/
def EightReadForms (imm zpg zpgX : Byte × (Byte → Instr)) (abs absX absY : Byte × (Word → Instr))
    (indX indY : Byte × (Byte → Instr)) (Good : Instr → State → Byte → Word → Int → Prop) : Prop :=
  ∀ (s : State) (b : Byte) (w : Word),
    (Enc2 imm.1 b (imm.2 b) ∧ Good (imm.2 b) s b 2 2) ∧
    (Enc2 zpg.1 b (zpg.2 b) ∧ Good (zpg.2 b) s (s.mem.read (zp b)) 2 3) ∧
    (Enc2 zpgX.1 b (zpgX.2 b) ∧ Good (zpgX.2 b) s (s.mem.read (zp (b + s.X))) 2 4) ∧
    (Enc3 abs.1 w (abs.2 w) ∧ Good (abs.2 w) s (s.mem.read w) 3 4) ∧
    (Enc3 absX.1 w (absX.2 w) ∧
      Good (absX.2 w) s (s.mem.read (indexed w s.X)) 3 (4 + crossCost w (indexed w s.X))) ∧
    (Enc3 absY.1 w (absY.2 w) ∧
      Good (absY.2 w) s (s.mem.read (indexed w s.Y)) 3 (4 + crossCost w (indexed w s.Y))) ∧
    (Enc2 indX.1 b (indX.2 b) ∧ Good (indX.2 b) s (s.mem.read (pointerAt s (b + s.X))) 2 6) ∧
    (Enc2 indY.1 b (indY.2 b) ∧
      Good (indY.2 b) s (s.mem.read (indexed (pointerAt s b) s.Y)) 2
        (5 + crossCost (pointerAt s b) (indexed (pointerAt s b) s.Y)))

/-! ### Bytes and results -/

/-- The 149 bytes of R99, copied from its list. -/
def unrecognized : List Byte :=
  [0x00#8, 0x02#8, 0x03#8, 0x04#8, 0x06#8, 0x07#8, 0x0A#8, 0x0B#8, 0x0C#8, 0x0E#8, 0x0F#8, 0x12#8, 0x13#8, 0x14#8, 0x16#8] ++
  [0x17#8, 0x1A#8, 0x1B#8, 0x1C#8, 0x1E#8, 0x1F#8, 0x22#8, 0x23#8, 0x26#8, 0x27#8, 0x2A#8, 0x2B#8, 0x2E#8, 0x2F#8, 0x32#8] ++
  [0x33#8, 0x34#8, 0x36#8, 0x37#8, 0x3A#8, 0x3B#8, 0x3C#8, 0x3E#8, 0x3F#8, 0x40#8, 0x42#8, 0x43#8, 0x44#8, 0x46#8, 0x47#8] ++
  [0x4A#8, 0x4B#8, 0x4E#8, 0x4F#8, 0x52#8, 0x53#8, 0x54#8, 0x56#8, 0x57#8, 0x5A#8, 0x5B#8, 0x5C#8, 0x5E#8, 0x5F#8, 0x62#8] ++
  [0x63#8, 0x64#8, 0x66#8, 0x67#8, 0x6A#8, 0x6B#8, 0x6E#8, 0x6F#8, 0x72#8, 0x73#8, 0x74#8, 0x76#8, 0x77#8, 0x7A#8, 0x7B#8] ++
  [0x7C#8, 0x7E#8, 0x7F#8, 0x80#8, 0x82#8, 0x83#8, 0x87#8, 0x89#8, 0x8B#8, 0x8F#8, 0x92#8, 0x93#8, 0x97#8, 0x9B#8, 0x9C#8] ++
  [0x9E#8, 0x9F#8, 0xA3#8, 0xA7#8, 0xAB#8, 0xAF#8, 0xB2#8, 0xB3#8, 0xB7#8, 0xBB#8, 0xBF#8, 0xC0#8, 0xC1#8, 0xC2#8, 0xC3#8] ++
  [0xC4#8, 0xC5#8, 0xC7#8, 0xC9#8, 0xCB#8, 0xCC#8, 0xCD#8, 0xCF#8, 0xD1#8, 0xD2#8, 0xD3#8, 0xD4#8, 0xD5#8, 0xD7#8, 0xD9#8] ++
  [0xDA#8, 0xDB#8, 0xDC#8, 0xDD#8, 0xDF#8, 0xE0#8, 0xE1#8, 0xE2#8, 0xE3#8, 0xE4#8, 0xE5#8, 0xE7#8, 0xE9#8, 0xEB#8, 0xEC#8] ++
  [0xED#8, 0xEF#8, 0xF1#8, 0xF2#8, 0xF3#8, 0xF4#8, 0xF5#8, 0xF7#8, 0xF9#8, 0xFA#8, 0xFB#8, 0xFC#8, 0xFD#8, 0xFF#8]

/-- `n` more cycles consumed. -/
def plusConsumed (n : Int) : Result → Result
  | .done s c => .done s (n + c)
  | .fault f s c => .fault f s (n + c)
  | .refused r s c => .refused r s (n + c)

/-- The state a call returns. -/
def returned : Result → State
  | .done s _ => s
  | .fault _ s _ => s
  | .refused _ s _ => s

end Sys2Proof.Claim

open Sys2Proof Sys2Proof.Machine Sys2Proof.Claim

/-! ## Reset, load and memory -/

/-- R44, R294: creation leaves A = X = Y = P = 0, SP = 0xFF, PC = 0x0000 and a memory of zeros. That
the idle budget in both is 0 is the model's choice (log 1). -/
def Obligations.ResetStateIsCreation : Prop :=
  State.reset = create ∧ State.reset.A = 0x00#8 ∧ State.reset.X = 0x00#8 ∧ State.reset.Y = 0x00#8 ∧
    State.reset.SP = 0xFF#8 ∧ State.reset.P = 0x00#8 ∧ State.reset.PC = 0x0000#16 ∧
    ∀ a, State.reset.mem.read a = 0x00#8

/-- R290: the registers-only reset. -/
def Obligations.ResetRegistersFromVector : Prop :=
  ∀ s : State, resetRegisters s =
    { s with
      A := 0x00#8, X := 0x00#8, Y := 0x00#8, SP := 0xFF#8, P := 0x00#8
      PC := s.mem.read 0xFFFD#16 ++ s.mem.read 0xFFFC#16 }

/-- R291, R293: after reset-and-clear every byte is 0 and PC is 0x0000. -/
def Obligations.ResetAndClearZeroes : Prop :=
  ∀ s : State, ∃ m : Memory, (∀ a, m.read a = 0x00#8) ∧ resetAndClear s =
    { s with A := 0x00#8, X := 0x00#8, Y := 0x00#8, SP := 0xFF#8, P := 0x00#8, PC := 0x0000#16, mem := m }

/-- R296: where a load puts each byte, that it touches nothing else, that a reset then enters the program, and which
buffers are refused. -/
def Obligations.LoadPlacesProgram : Prop :=
  ∀ s : State,
    (∀ (lo hi : Byte) (body : List Byte), (hi ++ lo : Word).toNat + body.length ≤ 0x10000 →
      ∃ m : Memory, load (lo :: hi :: body) s = .next { s with mem := m } ∧
        m.read 0xFFFC#16 = lo ∧ m.read 0xFFFD#16 = hi ∧ (resetRegisters { s with mem := m }).PC = hi ++ lo ∧
        (∀ (k : Nat) (hk : k < body.length),
          (hi ++ lo : Word) + BitVec.ofNat 16 k ≠ 0xFFFC#16 → (hi ++ lo : Word) + BitVec.ofNat 16 k ≠ 0xFFFD#16 →
          m.read ((hi ++ lo : Word) + BitVec.ofNat 16 k) = body[k]) ∧
        (∀ a : Word, a ≠ 0xFFFC#16 → a ≠ 0xFFFD#16 →
          (∀ k, k < body.length → a ≠ (hi ++ lo : Word) + BitVec.ofNat 16 k) → m.read a = s.mem.read a)) ∧
    (∀ buf : List Byte, buf.length < 2 → load buf s = .refused .loadBufferTooShort) ∧
    (∀ (lo hi : Byte) (body : List Byte), 0x10000 < (hi ++ lo : Word).toNat + body.length →
      load (lo :: hi :: body) s = .refused .loadPastEnd)

/-- R63, R64: words are little-endian, the second byte at the address plus 1 modulo 65536, for 2 cycles. -/
def Obligations.WordsAreLittleEndian : Prop :=
  ∀ (s : State) (a w : Word),
    memRead2 a s = ((s.mem.read a).setWidth 16 ||| ((s.mem.read (a + 1)).setWidth 16 <<< 8),
      { s with budget := s.budget - 2 }) ∧
    ∃ m : Memory, memWrite2 a w s = { s with mem := m, budget := s.budget - 2 } ∧
      m.read a = w.extractLsb' 0 8 ∧ m.read (a + 1) = w.extractLsb' 8 8 ∧
      (∀ x, x ≠ a → x ≠ a + 1 → m.read x = s.mem.read x) ∧ m.readWord a = w

/-- Log 3: two memories in canonical form that read alike are the same data. -/
def Obligations.CanonicalMemoriesAreEqual : Prop :=
  ∀ m m' : Memory, m.wf → m'.wf → (∀ a, m.read a = m'.read a) → m = m'

/-- R70 to R73: the four stack primitives, whole. -/
def Obligations.StackPrimitivesPushAndPull : Prop :=
  ∀ (s : State) (v : Byte) (w : Word),
    (∃ m, WritesByte s.mem m (stack s.SP) v ∧
      pushByte v s = { s with mem := m, SP := s.SP - 1, budget := s.budget - 1 }) ∧
    (∃ m : Memory, m.read (stack s.SP) = w.extractLsb' 8 8 ∧ m.read (stack (s.SP - 1)) = w.extractLsb' 0 8 ∧
      (∀ a, a ≠ stack s.SP → a ≠ stack (s.SP - 1) → m.read a = s.mem.read a) ∧
      pushWord w s = { s with mem := m, SP := s.SP - 2, budget := s.budget - 2 }) ∧
    pullByte s = (s.mem.read (stack (s.SP + 1)), { s with SP := s.SP + 1, budget := s.budget - 1 }) ∧
    pullWord s =
      (s.mem.read (stack (s.SP + 2)) ++ s.mem.read (stack (s.SP + 1)),
        { s with SP := s.SP + 2, budget := s.budget - 2 })

/-- R74: a stack access stays in page 1 whatever SP is, SP wraps, and nothing faults. -/
def Obligations.StackStaysInPageOne : Prop :=
  ∀ (s : State) (v : Byte) (w : Word),
    (∀ a : Word, a.extractLsb' 8 8 ≠ 0x01#8 →
      (pushByte v s).mem.read a = s.mem.read a ∧ (pushWord w s).mem.read a = s.mem.read a) ∧
    (pushByte v s).mem.read (stack s.SP) = v ∧ (pushByte v s).SP = s.SP - 1 ∧
    (pullByte s).1 = s.mem.read (stack (s.SP + 1)) ∧ (pullByte s).2.SP = s.SP + 1 ∧
    (stack s.SP).extractLsb' 8 8 = 0x01#8

/-- R73: pulling a word at the depth it was pushed gives it back, and SP with it, at every SP, whatever happened to the
rest of the machine in between. -/
def Obligations.PulledWordIsThePushedOne : Prop :=
  ∀ (s t : State) (w : Word), t.SP = (pushWord w s).SP → t.mem = (pushWord w s).mem →
    (pullWord t).1 = w ∧ (pullWord t).2.SP = s.SP

/-! ## Arithmetic and page crossing -/

/-- R211, R219: the source's two-part carry is the carry of the exact sum, and V says that the sum of the bytes read as
signed numbers lies outside -128..127. -/
def Obligations.AdcFlagsMeanCarryAndSignedOverflow : Prop :=
  ∀ (a m : Byte) (cin : Bool),
    (adc8 a m cin).r.toNat = (a.toNat + m.toNat + cin.toNat) % 256 ∧
    (adc8 a m cin).cout = decide (256 ≤ a.toNat + m.toNat + cin.toNat) ∧
    (adc8 a m cin).v = decide (a.toInt + m.toInt + cin.toNat < -128 ∨ 127 < a.toInt + m.toInt + cin.toNat)

/-- R141: crossing means that the high bytes differ, and for every addition the core performs that is the same as bit 8
differing. -/
def Obligations.PageCrossIsBitEight : Prop :=
  (∀ a b : Word, crossed a b = decide (a.extractLsb' 8 8 ≠ b.extractLsb' 8 8)) ∧
  ∀ (a : Word) (b : Byte),
    (crossed a (a + b.setWidth 16) = decide (a.getLsbD 8 ≠ (a + b.setWidth 16).getLsbD 8)) ∧
    (crossed a (a + b.signExtend 16) = decide (a.getLsbD 8 ≠ (a + b.signExtend 16).getLsbD 8))

/-! ## Load and store -/

/-- R160. -/
def Obligations.LdaLoads : Prop :=
  EightReadForms (0xA9, .ldaImm) (0xA5, .ldaZp) (0xB5, .ldaZpX) (0xAD, .ldaAbs) (0xBD, .ldaAbsX) (0xB9, .ldaAbsY)
    (0xA1, .ldaIndX) (0xB1, .ldaIndY) LoadsA

/-- R161. -/
def Obligations.LdxLoads : Prop :=
  ∀ (s : State) (b : Byte) (w : Word),
    (Enc2 0xA2 b (.ldxImm b) ∧ LoadsX (.ldxImm b) s b 2 2) ∧
    (Enc2 0xA6 b (.ldxZp b) ∧ LoadsX (.ldxZp b) s (s.mem.read (zp b)) 2 3) ∧
    (Enc2 0xB6 b (.ldxZpY b) ∧ LoadsX (.ldxZpY b) s (s.mem.read (zp (b + s.Y))) 2 4) ∧
    (Enc3 0xAE w (.ldxAbs w) ∧ LoadsX (.ldxAbs w) s (s.mem.read w) 3 4) ∧
    (Enc3 0xBE w (.ldxAbsY w) ∧
      LoadsX (.ldxAbsY w) s (s.mem.read (indexed w s.Y)) 3 (4 + crossCost w (indexed w s.Y)))

/-- R162. -/
def Obligations.LdyLoads : Prop :=
  ∀ (s : State) (b : Byte) (w : Word),
    (Enc2 0xA0 b (.ldyImm b) ∧ LoadsY (.ldyImm b) s b 2 2) ∧
    (Enc2 0xA4 b (.ldyZp b) ∧ LoadsY (.ldyZp b) s (s.mem.read (zp b)) 2 3) ∧
    (Enc2 0xB4 b (.ldyZpX b) ∧ LoadsY (.ldyZpX b) s (s.mem.read (zp (b + s.X))) 2 4) ∧
    (Enc3 0xAC w (.ldyAbs w) ∧ LoadsY (.ldyAbs w) s (s.mem.read w) 3 4) ∧
    (Enc3 0xBC w (.ldyAbsX w) ∧
      LoadsY (.ldyAbsX w) s (s.mem.read (indexed w s.X)) 3 (4 + crossCost w (indexed w s.X)))

/-- R163: the store variants always cost the index cycle. -/
def Obligations.StaStores : Prop :=
  ∀ (s : State) (b : Byte) (w : Word),
    (Enc2 0x85 b (.staZp b) ∧ StoresAt (.staZp b) s (zp b) s.A 2 3) ∧
    (Enc2 0x95 b (.staZpX b) ∧ StoresAt (.staZpX b) s (zp (b + s.X)) s.A 2 4) ∧
    (Enc3 0x8D w (.staAbs w) ∧ StoresAt (.staAbs w) s w s.A 3 4) ∧
    (Enc3 0x9D w (.staAbsX w) ∧ StoresAt (.staAbsX w) s (indexed w s.X) s.A 3 5) ∧
    (Enc3 0x99 w (.staAbsY w) ∧ StoresAt (.staAbsY w) s (indexed w s.Y) s.A 3 5) ∧
    (Enc2 0x81 b (.staIndX b) ∧ StoresAt (.staIndX b) s (pointerAt s (b + s.X)) s.A 2 6) ∧
    (Enc2 0x91 b (.staIndY b) ∧ StoresAt (.staIndY b) s (indexed (pointerAt s b) s.Y) s.A 2 6)

/-- R164. -/
def Obligations.StxStores : Prop :=
  ∀ (s : State) (b : Byte) (w : Word),
    (Enc2 0x86 b (.stxZp b) ∧ StoresAt (.stxZp b) s (zp b) s.X 2 3) ∧
    (Enc2 0x96 b (.stxZpY b) ∧ StoresAt (.stxZpY b) s (zp (b + s.Y)) s.X 2 4) ∧
    (Enc3 0x8E w (.stxAbs w) ∧ StoresAt (.stxAbs w) s w s.X 3 4)

/-- R165. -/
def Obligations.StyStores : Prop :=
  ∀ (s : State) (b : Byte) (w : Word),
    (Enc2 0x84 b (.styZp b) ∧ StoresAt (.styZp b) s (zp b) s.Y 2 3) ∧
    (Enc2 0x94 b (.styZpX b) ∧ StoresAt (.styZpX b) s (zp (b + s.X)) s.Y 2 4) ∧
    (Enc3 0x8C w (.styAbs w) ∧ StoresAt (.styAbs w) s w s.Y 3 4)

/-! ## Logical and BIT -/

/-- R180. -/
def Obligations.AndCombines : Prop :=
  EightReadForms (0x29, .andImm) (0x25, .andZp) (0x35, .andZpX) (0x2D, .andAbs) (0x3D, .andAbsX) (0x39, .andAbsY)
    (0x21, .andIndX) (0x31, .andIndY) (fun i s m len cycles => LoadsA i s (s.A &&& m) len cycles)

/-- R181. -/
def Obligations.OraCombines : Prop :=
  EightReadForms (0x09, .oraImm) (0x05, .oraZp) (0x15, .oraZpX) (0x0D, .oraAbs) (0x1D, .oraAbsX) (0x19, .oraAbsY)
    (0x01, .oraIndX) (0x11, .oraIndY) (fun i s m len cycles => LoadsA i s (s.A ||| m) len cycles)

/-- R182. -/
def Obligations.EorCombines : Prop :=
  EightReadForms (0x49, .eorImm) (0x45, .eorZp) (0x55, .eorZpX) (0x4D, .eorAbs) (0x5D, .eorAbsX) (0x59, .eorAbsY)
    (0x41, .eorIndX) (0x51, .eorIndY) (fun i s m len cycles => LoadsA i s (s.A ^^^ m) len cycles)

/-- R183. -/
def Obligations.BitTestsAgainstA : Prop :=
  ∀ (s : State) (b : Byte) (w : Word),
    (Enc2 0x24 b (.bitZp b) ∧ TestsBits (.bitZp b) s (s.mem.read (zp b)) 2 3) ∧
    (Enc3 0x2C w (.bitAbs w) ∧ TestsBits (.bitAbs w) s (s.mem.read w) 3 4)

/-! ## Transfer and stack -/

/-- R190 to R195: each copies its source; all but TXS set the assignment flags. -/
def Obligations.TransfersCopy : Prop :=
  ∀ s : State,
    (Enc1 0xAA .tax ∧ LoadsX .tax s s.A 1 2) ∧ (Enc1 0xA8 .tay ∧ LoadsY .tay s s.A 1 2) ∧
    (Enc1 0x8A .txa ∧ LoadsA .txa s s.X 1 2) ∧ (Enc1 0x98 .tya ∧ LoadsA .tya s s.Y 1 2) ∧
    (Enc1 0xBA .tsx ∧ LoadsX .tsx s s.SP 1 2) ∧
    (Enc1 0x9A .txs ∧ exec .txs s = .next { s with SP := s.X, PC := s.PC + 1, budget := s.budget - 2 })

/-- R196, R197: PHA pushes A, PHP pushes P with bits 4 and 5 set; the live P stays. -/
def Obligations.PushesStoreOnTheStack : Prop :=
  ∀ s : State,
    (Enc1 0x48 .pha ∧ ∃ m, WritesByte s.mem m (stack s.SP) s.A ∧
      exec .pha s = .next { s with mem := m, SP := s.SP - 1, PC := s.PC + 1, budget := s.budget - 3 }) ∧
    (Enc1 0x08 .php ∧ ∃ m, WritesByte s.mem m (stack s.SP) (s.P ||| 0b00110000#8) ∧
      exec .php s = .next { s with mem := m, SP := s.SP - 1, PC := s.PC + 1, budget := s.budget - 3 })

/-- R198, R199: PLA pulls into A with flags; PLP pulls into P but for bits 4 and 5. -/
def Obligations.PullsLoadFromTheStack : Prop :=
  ∀ s : State,
    (Enc1 0x68 .pla ∧ ∃ p, AssignsZN s.P p (s.mem.read (stack (s.SP + 1))) ∧ exec .pla s = .next
      { s with
        A := s.mem.read (stack (s.SP + 1)), P := p, SP := s.SP + 1, PC := s.PC + 1, budget := s.budget - 4 }) ∧
    (Enc1 0x28 .plp ∧ exec .plp s = .next
      { s with
        P := (s.P &&& 0b00110000#8) ||| (s.mem.read (stack (s.SP + 1)) &&& 0b11001111#8)
        SP := s.SP + 1, PC := s.PC + 1, budget := s.budget - 4 })

/-- R199: a PHP followed by a PLP restores P exactly, and SP, from any state. -/
def Obligations.PhpThenPlpRestoresStatus : Prop :=
  ∀ s : State, ∃ t u, exec .php s = .next t ∧ exec .plp t = .next u ∧ u.P = s.P ∧ u.SP = s.SP

/-! ## Increment, decrement and ADC -/

/-- R212, R213. -/
def Obligations.IncDecModifyMemory : Prop :=
  ∀ (s : State) (b : Byte) (w : Word),
    (Enc2 0xE6 b (.incZp b) ∧ ModifiesAt (.incZp b) s (zp b) (s.mem.read (zp b) + 1) 2 5) ∧
    (Enc2 0xF6 b (.incZpX b) ∧
      ModifiesAt (.incZpX b) s (zp (b + s.X)) (s.mem.read (zp (b + s.X)) + 1) 2 6) ∧
    (Enc3 0xEE w (.incAbs w) ∧ ModifiesAt (.incAbs w) s w (s.mem.read w + 1) 3 6) ∧
    (Enc3 0xFE w (.incAbsX w) ∧
      ModifiesAt (.incAbsX w) s (indexed w s.X) (s.mem.read (indexed w s.X) + 1) 3 7) ∧
    (Enc2 0xC6 b (.decZp b) ∧ ModifiesAt (.decZp b) s (zp b) (s.mem.read (zp b) - 1) 2 5) ∧
    (Enc2 0xD6 b (.decZpX b) ∧
      ModifiesAt (.decZpX b) s (zp (b + s.X)) (s.mem.read (zp (b + s.X)) - 1) 2 6) ∧
    (Enc3 0xCE w (.decAbs w) ∧ ModifiesAt (.decAbs w) s w (s.mem.read w - 1) 3 6) ∧
    (Enc3 0xDE w (.decAbsX w) ∧
      ModifiesAt (.decAbsX w) s (indexed w s.X) (s.mem.read (indexed w s.X) - 1) 3 7)

/-- R214 to R217. -/
def Obligations.IndexRegistersStepByOne : Prop :=
  ∀ s : State,
    (Enc1 0xE8 .inx ∧ LoadsX .inx s (s.X + 1) 1 2) ∧ (Enc1 0xC8 .iny ∧ LoadsY .iny s (s.Y + 1) 1 2) ∧
    (Enc1 0xCA .dex ∧ LoadsX .dex s (s.X - 1) 1 2) ∧ (Enc1 0x88 .dey ∧ LoadsY .dey s (s.Y - 1) 1 2)

/-- R218. -/
def Obligations.AdcAddsInBinary : Prop :=
  EightReadForms (0x69, .adcImm) (0x65, .adcZp) (0x75, .adcZpX) (0x6D, .adcAbs) (0x7D, .adcAbsX) (0x79, .adcAbsY)
    (0x61, .adcIndX) (0x71, .adcIndY) AddsIntoA

/-! ## Flags -/

/-- R230 to R236: exactly the named bit. -/
def Obligations.FlagInstructionsAssignOneBit : Prop :=
  ∀ s : State,
    (Enc1 0x18 .clc ∧ AssignsFlag .clc s 0 false) ∧ (Enc1 0x38 .sec ∧ AssignsFlag .sec s 0 true) ∧
    (Enc1 0x58 .cli ∧ AssignsFlag .cli s 2 false) ∧ (Enc1 0x78 .sei ∧ AssignsFlag .sei s 2 true) ∧
    (Enc1 0xB8 .clv ∧ AssignsFlag .clv s 6 false) ∧
    (Enc1 0xD8 .cld ∧ AssignsFlag .cld s 3 false) ∧ (Enc1 0xF8 .sed ∧ AssignsFlag .sed s 3 true)

/-- R37, R39, R40: which instructions may change each bit of P. -/
def Obligations.FlagsChangeOnlyWhereListed : Prop :=
  ∀ (i : Instr) (s t : State), exec i s = .next t →
    (i.mnemonic ∉ [.ADC, .CLC, .SEC, .PLP] → t.P.getLsbD 0 = s.P.getLsbD 0) ∧
    (i.mnemonic ∉ [.SEI, .CLI, .PLP] → t.P.getLsbD 2 = s.P.getLsbD 2) ∧
    (i.mnemonic ∉ [.SED, .CLD, .PLP] → t.P.getLsbD 3 = s.P.getLsbD 3) ∧
    (t.P.getLsbD 4 = s.P.getLsbD 4) ∧ (t.P.getLsbD 5 = s.P.getLsbD 5) ∧
    (i.mnemonic ∉ [.ADC, .BIT, .CLV, .PLP] → t.P.getLsbD 6 = s.P.getLsbD 6) ∧
    (i.mnemonic ∉ [.LDA, .LDX, .LDY, .AND, .ORA, .EOR, .BIT, .TAX, .TAY, .TXA, .TYA, .TSX, .PLA, .INC, .DEC, .INX,
        .INY, .DEX, .DEY, .ADC, .PLP] →
      t.P.getLsbD 1 = s.P.getLsbD 1 ∧ t.P.getLsbD 7 = s.P.getLsbD 7)

/-! ## Control flow -/

/-- R240 to R248. -/
def Obligations.BranchesTestTheirFlag : Prop :=
  ∀ (s : State) (b : Byte),
    (Enc2 0x10 b (.bpl b) ∧ Branches (.bpl b) s b (s.P.getLsbD 7 = false)) ∧
    (Enc2 0x30 b (.bmi b) ∧ Branches (.bmi b) s b (s.P.getLsbD 7 = true)) ∧
    (Enc2 0x50 b (.bvc b) ∧ Branches (.bvc b) s b (s.P.getLsbD 6 = false)) ∧
    (Enc2 0x70 b (.bvs b) ∧ Branches (.bvs b) s b (s.P.getLsbD 6 = true)) ∧
    (Enc2 0x90 b (.bcc b) ∧ Branches (.bcc b) s b (s.P.getLsbD 0 = false)) ∧
    (Enc2 0xB0 b (.bcs b) ∧ Branches (.bcs b) s b (s.P.getLsbD 0 = true)) ∧
    (Enc2 0xD0 b (.bne b) ∧ Branches (.bne b) s b (s.P.getLsbD 1 = false)) ∧
    (Enc2 0xF0 b (.beq b) ∧ Branches (.beq b) s b (s.P.getLsbD 1 = true))

/-- R101: a branch target's offset byte is the one that reaches it from the next instruction (R240); a distance
outside -128..127 has none. Reading the distance the shorter way round the address space is the model's (log 10). -/
def Obligations.BranchOperandEncodesItsTarget : Prop :=
  ∀ branch target : Word,
    (∀ off : Byte, assembleBranch branch target = some off ↔ branch + 2 + off.signExtend 16 = target) ∧
    (assembleBranch branch target = none ↔
      (target - (branch + 2)).toInt < -128 ∨ 127 < (target - (branch + 2)).toInt)

/-- R249: the indirect pointer's high byte is at the next address, across a page too. -/
def Obligations.JumpsSetPc : Prop :=
  ∀ (s : State) (w : Word),
    (Enc3 0x4C w (.jmpAbs w) ∧ exec (.jmpAbs w) s = .next { s with PC := w, budget := s.budget - 3 }) ∧
    (Enc3 0x6C w (.jmpInd w) ∧
      exec (.jmpInd w) s = .next { s with PC := s.mem.read (w + 1) ++ s.mem.read w, budget := s.budget - 5 })

/-- R250: JSR pushes the address of its last byte, high byte first, within page 1. -/
def Obligations.JsrPushesReturnAddress : Prop :=
  ∀ (s : State) (w : Word), Enc3 0x20 w (.jsr w) ∧
    ∃ m : Memory, m.read (stack s.SP) = (s.PC + 2).extractLsb' 8 8 ∧
      m.read (stack (s.SP - 1)) = (s.PC + 2).extractLsb' 0 8 ∧
      (∀ a, a ≠ stack s.SP → a ≠ stack (s.SP - 1) → m.read a = s.mem.read a) ∧
      exec (.jsr w) s = .next { s with mem := m, SP := s.SP - 2, PC := w, budget := s.budget - 6 }

/-- R251: RTS pulls a word and continues one past it. -/
def Obligations.RtsPullsReturnAddress : Prop :=
  ∀ s : State, Enc1 0x60 .rts ∧ exec .rts s = .next
    { s with
      PC := (s.mem.read (stack (s.SP + 2)) ++ s.mem.read (stack (s.SP + 1)) : Word) + 1
      SP := s.SP + 2, budget := s.budget - 6 }

/-- R252. -/
def Obligations.NopOnlyAdvances : Prop :=
  ∀ s : State, Enc1 0xEA .nop ∧ exec .nop s = .next { s with PC := s.PC + 1, budget := s.budget - 2 }

/-- R254: an RTS with the stack as a JSR left it returns behind the JSR, at every SP, whatever PC and registers are by then. -/
def Obligations.RtsReturnsBehindJsr : Prop :=
  ∀ (s : State) (w : Word), ∃ t, exec (.jsr w) s = .next t ∧ ∀ t' : State, t'.SP = t.SP → t'.mem = t.mem →
    ∃ u, exec .rts t' = .next u ∧ u.PC = s.PC + 3 ∧ u.SP = s.SP

/-! ## Rules over all instructions -/

/-- R31 to R33: which instructions may change A, X, Y and SP. -/
def Obligations.RegistersChangeOnlyWhereListed : Prop :=
  ∀ (i : Instr) (s t : State), exec i s = .next t →
    (i.mnemonic ∉ [.LDA, .AND, .ORA, .EOR, .ADC, .TXA, .TYA, .PLA] → t.A = s.A) ∧
    (i.mnemonic ∉ [.LDX, .TAX, .TSX, .INX, .DEX] → t.X = s.X) ∧
    (i.mnemonic ∉ [.LDY, .TAY, .INY, .DEY] → t.Y = s.Y) ∧
    (i.mnemonic ∉ [.TXS, .PHA, .PHP, .PLA, .PLP, .JSR, .RTS] → t.SP = s.SP)

/-- R35, R163 to R165, R196, R197, R212, R213, R250: only these store; and all but control transfers leave PC behind themselves. -/
def Obligations.MemoryAndPcChangeOnlyWhereListed : Prop :=
  ∀ (i : Instr) (s t : State), exec i s = .next t →
    (i.mnemonic ∉ [.STA, .STX, .STY, .INC, .DEC, .PHA, .PHP, .JSR] → ∀ a, t.mem.read a = s.mem.read a) ∧
    (i.mnemonic ∉ [.BPL, .BMI, .BVC, .BVS, .BCC, .BCS, .BNE, .BEQ, .JMP, .JSR, .RTS] →
      t.PC = s.PC + BitVec.ofNat 16 i.mode.length)

/-- R31, R32: an instruction outside the list of A's (X's, Y's) readers does the same whatever the register holds, and
an instruction that is not among its writers carries the register's value through. -/
def Obligations.RegistersReadOnlyWhereListed : Prop :=
  ∀ (i : Instr) (s t : State) (v : Byte), exec i s = .next t →
    (i.mnemonic ∉ [.STA, .AND, .ORA, .EOR, .ADC, .BIT, .TAX, .TAY, .PHA] →
      exec i { s with A := v } =
        .next (if i.mnemonic ∈ [.LDA, .TXA, .TYA, .PLA] then t else { t with A := v })) ∧
    (i.mnemonic ∉ [.STX, .TXA, .TXS, .INX, .DEX] →
      i.mode ∉ [.zeroPageX, .absoluteX, .absoluteXStore, .indirectX] →
      exec i { s with X := v } = .next (if i.mnemonic ∈ [.LDX, .TAX, .TSX] then t else { t with X := v })) ∧
    (i.mnemonic ∉ [.STY, .TYA, .INY, .DEY] →
      i.mode ∉ [.zeroPageY, .absoluteY, .absoluteYStore, .indirectY, .indirectYStore] →
      exec i { s with Y := v } = .next (if i.mnemonic ∈ [.LDY, .TAY] then t else { t with Y := v }))

/-- R264, R211, R37: only PHP lets P.I or P.D show in anything else: every other instruction does the same
whatever these two bits hold. -/
def Obligations.InterruptAndDecimalFlagsSteerNothing : Prop :=
  ∀ (i : Instr) (s t : State) (p : Byte), i.mnemonic ≠ .PHP →
    (∀ k, k ≠ 2 → k ≠ 3 → p.getLsbD k = s.P.getLsbD k) → exec i s = .next t →
    ∃ p', exec i { s with P := p } = .next { t with P := p' } ∧
      ∀ k, k ≠ 2 → k ≠ 3 → p'.getLsbD k = t.P.getLsbD k

/-- R302: the budget changes nothing an instruction computes, and an instruction costs the same at every budget. -/
def Obligations.BudgetSteersNoInstruction : Prop :=
  ∀ (i : Instr) (s t : State) (b : Int), exec i s = .next t →
    exec i { s with budget := b } = .next { t with budget := b - (s.budget - t.budget) }

/-- R125, R129: every instruction completes and costs 2 to 7 cycles. -/
def Obligations.EveryInstructionCostsTwoToSeven : Prop :=
  ∀ (i : Instr) (s : State), ∃ t, exec i s = .next t ∧ 2 ≤ s.budget - t.budget ∧ s.budget - t.budget ≤ 7

/-! ## The step -/

/-- The step is exec of the instruction the decoder reads at PC. It adds nothing: exec itself moves PC past the
instruction and charges its fetch. A step is one pass of the loop of R126 without its budget check (the model's choice, log 4). -/
def Obligations.StepRunsTheDecodedInstruction : Prop :=
  ∀ (s : State) (i : Instr) (rest : List Byte),
    decode [s.mem.read s.PC, s.mem.read (s.PC + 1), s.mem.read (s.PC + 2)] = .ok (i, rest) → step s = exec i s

/-- R91, R126: where an instruction's encoding stands at PC, byte k at PC +16 k, the step (log 4) runs that instruction. -/
def Obligations.StepRunsTheEncodingAtPc : Prop :=
  ∀ (s : State) (i : Instr),
    (∀ (k : Nat) (hk : k < (encode i).length), s.mem.read (s.PC + BitVec.ofNat 16 k) = (encode i)[k]) →
    step s = exec i s

/-- R99, R261: a step faults on each of the 149 unrecognized bytes, reporting the byte and its address. That it faults on no
other is inferred from R260 and R265. That a step does this at an exhausted budget too, where execute fetches nothing (R265),
is the model's choice: a step is one pass of the loop of R126 without its budget check (log 4). -/
def Obligations.StepFaultsExactlyOnUnrecognizedBytes : Prop :=
  ∀ s : State,
    (s.mem.read s.PC ∈ unrecognized → step s = .fault (.unknownOpcode (s.mem.read s.PC) s.PC)) ∧
    (s.mem.read s.PC ∉ unrecognized → ∃ t, step s = .next t)

/-- R39, R293, and log 3 for the memory's form: reset meets the invariant. -/
def Obligations.ResetMeetsTheInvariant : Prop := State.reset.Inv

/-- R39, and log 3 for the memory's form: every step (log 4) keeps the memory canonical and bits 4 and 5 of P at 0. -/
def Obligations.StepKeepsTheInvariant : Prop :=
  ∀ s t : State, s.Inv → step s = .next t → t.Inv

/-- R39, R298: no step (log 4) writes bits 4 and 5 of P, in any launch state. -/
def Obligations.StepKeepsBreakAndUnusedBits : Prop :=
  ∀ s t : State, step s = .next t → t.P &&& 0x30#8 = s.P &&& 0x30#8

/-- Log 7: the step (log 4) runs the instruction of a table word placed at PC. -/
def Obligations.StepRunsThePlacedTableWord : Prop :=
  ∀ (s : State) (nbits w : Nat) (i : Instr), decodeTableWord nbits w = some i →
    step (s.withFetchWord nbits w) = exec i (s.withFetchWord nbits w)

/-! ## Encoding -/

/-- Decoding the encoding of any instruction gives it back, with every operand, and leaves what follows. -/
def Obligations.DecodeOfEncode : Prop :=
  ∀ (i : Instr) (rest : List Byte), decode (encode i ++ rest) = .ok (i, rest)

/-- What decodes is the encoding of what it decodes to, so every word has one meaning and no byte is dropped. -/
def Obligations.EncodeOfDecode : Prop :=
  ∀ (bytes rest : List Byte) (i : Instr), decode bytes = .ok (i, rest) →
    bytes = encode i ++ rest ∧ (encode i).length = i.mode.length

/-- A word of each family, written out from R91 and R97. -/
def Obligations.SpecWordsDecode : Prop :=
  decode [0b10111101#8, 0xFF#8, 0x10#8] = .ok (.ldaAbsX 0x10FF#16, []) ∧
  decode [0b10010110#8, 0x80#8] = .ok (.stxZpY 0x80#8, []) ∧
  decode [0b00101001#8, 0x1F#8] = .ok (.andImm 0x1F#8, []) ∧
  decode [0b10011010#8] = .ok (.txs, []) ∧
  decode [0b01110001#8, 0x40#8] = .ok (.adcIndY 0x40#8, []) ∧
  decode [0b11111000#8] = .ok (.sed, []) ∧
  decode [0b11010000#8, 0xFB#8] = .ok (.bne 0xFB#8, []) ∧
  decode [0b01101100#8, 0xFF#8, 0x10#8] = .ok (.jmpInd 0x10FF#16, [])

/-! ## The execute call -/

/-- R126, R128: with no budget left nothing runs; otherwise one instruction runs and the call goes on from the state and
budget it leaves; a fault leaves the state before its fetch and charges nothing. That the budget field is 0 between calls is
the model's choice (log 1). -/
def Obligations.ExecuteFollowsItsLoop : Prop :=
  ∀ (b : Int) (s : State),
    (b ≤ 0 → execute b s = .done { s with budget := 0 } 0) ∧
    (0 < b → ∀ t, step { s with budget := b } = .next t →
      execute b s = plusConsumed (b - t.budget) (execute t.budget t)) ∧
    (0 < b → ∀ f, step { s with budget := b } = .fault f → execute b s = .fault f { s with budget := 0 } 0)

/-- R127, R128: a call that ends by its budget used it up, and overran by at most the last instruction's 7 cycles less one. -/
def Obligations.ExecuteConsumesItsBudget : Prop :=
  ∀ (b : Int) (s t : State) (c : Int), 0 < b → execute b s = .done t c → b ≤ c ∧ c ≤ b + 6

/-- R273: a budget of 1 runs exactly one instruction. The budget field's 0 after the call is the model's choice (log 1). -/
def Obligations.BudgetOneRunsOneInstruction : Prop :=
  ∀ s t : State, step { s with budget := 1 } = .next t →
    execute 1 s = .done { t with budget := 0 } (1 - t.budget)

/-- R303, R262: a call ends by its budget or at an unrecognized opcode, which it reports with the state and count before it;
no other end exists. -/
def Obligations.ExecuteEndsInOneOfTwoWays : Prop :=
  ∀ (b : Int) (s : State),
    (∃ t c, execute b s = .done t c) ∨
    ∃ t c, execute b s = .fault (.unknownOpcode (t.mem.read t.PC) t.PC) t c ∧ t.mem.read t.PC ∈ unrecognized ∧
      0 ≤ c ∧ c < b

/-- R39, and log 3 for the memory's form: whatever an execute call returns meets the invariant if its launch state does. -/
def Obligations.ExecuteKeepsTheInvariant : Prop :=
  ∀ (b : Int) (s : State), s.Inv → (returned (execute b s)).Inv
end

