-- ==== Sys2Proof/Laws/Memory.lean ====
section
/-! SUPPORT. The laws of memory: a read after a write, the canonical form kept by every memory operation, and
the bytes of words. -/

namespace Sys2Proof.Machine

/-! ### Reading after writing (20_memory.md R62, R75) -/

theorem Memory.read_put_same (m : Memory) (a : Word) (v : Byte) : (m.put a.toNat v).read a = v := by
  induction m with
  | nil => simp [Memory.put, Memory.read]
  | cons c m ih =>
    obtain ⟨j, b⟩ := c
    unfold Memory.put
    split
    · simp [Memory.read]
    · split
      · simp [Memory.read]
      · have : ¬ j = a.toNat := by omega
        simp [Memory.read, this, ih]

theorem Memory.read_put_other (m : Memory) (k : Nat) (a : Word) (v : Byte) (h : a.toNat ≠ k) :
    (m.put k v).read a = m.read a := by
  induction m with
  | nil => simp [Memory.put, Memory.read, Ne.symm h]
  | cons c m ih =>
    obtain ⟨j, b⟩ := c
    unfold Memory.put
    split
    · simp [Memory.read, Ne.symm h]
    · split
      · rename_i hk; subst hk; simp [Memory.read, Ne.symm h]
      · simp [Memory.read, ih]

theorem Memory.read_filter_same (m : Memory) (a : Word) :
    Memory.read (m.filter (fun c => c.1 != a.toNat)) a = Config.unwrittenByte := by
  induction m with
  | nil => rfl
  | cons c m ih =>
    obtain ⟨j, b⟩ := c
    by_cases hj : j = a.toNat <;> simp [hj, Memory.read, ih]

theorem Memory.read_filter_other (m : Memory) (k : Nat) (a : Word) (h : a.toNat ≠ k) :
    Memory.read (m.filter (fun c => c.1 != k)) a = m.read a := by
  induction m with
  | nil => rfl
  | cons c m ih =>
    obtain ⟨j, b⟩ := c
    by_cases hj : j = k
    · simp [hj, Memory.read, ih, Ne.symm h]
    · simp [hj, Memory.read, ih]

/-- A write gives its value at its address and leaves every other byte alone, in every memory (R62, R75). -/
theorem Memory.read_write (m : Memory) (a x : Word) (v : Byte) :
    (m.write a v).read x = if x = a then v else m.read x := by
  unfold Memory.write
  split
  · rename_i hv
    split
    · rename_i hx; rw [hx, hv]; exact Memory.read_filter_same m a
    · rename_i hx
      exact Memory.read_filter_other m _ x (fun h => hx (BitVec.eq_of_toNat_eq h))
  · split
    · rename_i hx; rw [hx]; exact Memory.read_put_same m a v
    · rename_i hx
      exact Memory.read_put_other m _ x v (fun h => hx (BitVec.eq_of_toNat_eq h))

@[simp] theorem Memory.read_write_same (m : Memory) (a : Word) (v : Byte) : (m.write a v).read a = v := by
  simp [Memory.read_write]

theorem Memory.read_write_other (m : Memory) {a x : Word} (v : Byte) (h : x ≠ a) :
    (m.write a v).read x = m.read x := by simp [Memory.read_write, h]

@[simp] theorem Memory.read_nil (a : Word) : Memory.read [] a = 0x00#8 := rfl

@[simp] theorem Memory.read_clear (m : Memory) (a : Word) : m.clear.read a = 0x00#8 := rfl

/-! ### The canonical form -/

theorem Memory.mem_put {m : Memory} {k : Nat} {v : Byte} {c : Host.Cell} (h : c ∈ m.put k v) : c = (k, v) ∨ c ∈ m := by
  induction m with
  | nil => simpa [Memory.put] using h
  | cons d m ih =>
    obtain ⟨j, b⟩ := d
    unfold Memory.put at h
    split at h
    · simpa using h
    · split at h
      · rcases List.mem_cons.mp h with rfl | h
        · exact .inl rfl
        · exact .inr (List.mem_cons_of_mem _ h)
      · rcases List.mem_cons.mp h with rfl | h
        · exact .inr List.mem_cons_self
        · rcases ih h with h | h
          · exact .inl h
          · exact .inr (List.mem_cons_of_mem _ h)

theorem Memory.wf_put {m : Memory} (h : m.wf) {k : Nat} (hk : k < Config.memSize) {v : Byte}
    (hv : v ≠ Config.unwrittenByte) : (m.put k v).wf := by
  obtain ⟨hp, hc⟩ := h
  induction m with
  | nil => exact ⟨by simp [Memory.put], by intro c hmem; simp [Memory.put] at hmem; subst hmem; exact ⟨hk, hv⟩⟩
  | cons d m ih =>
    obtain ⟨j, b⟩ := d
    have hp' := List.pairwise_cons.mp hp
    have hin : ∀ c ∈ Memory.put k v ((j, b) :: m), c.1 < Config.memSize ∧ c.2 ≠ Config.unwrittenByte := by
      intro c hmem
      rcases Memory.mem_put hmem with rfl | hmem
      · exact ⟨hk, hv⟩
      · exact hc c hmem
    refine ⟨?_, hin⟩
    unfold Memory.put
    split
    · rename_i hlt
      refine List.pairwise_cons.mpr ⟨?_, hp⟩
      intro c hmem
      rcases List.mem_cons.mp hmem with rfl | hmem
      · exact hlt
      · exact Nat.lt_trans hlt (hp'.1 c hmem)
    · split
      · rename_i heq; subst heq; exact List.pairwise_cons.mpr ⟨hp'.1, hp'.2⟩
      · rename_i hge hne
        refine List.pairwise_cons.mpr ⟨?_, (ih hp'.2 (fun c hm => hc c (List.mem_cons_of_mem _ hm))).1⟩
        intro c hmem
        rcases Memory.mem_put hmem with rfl | hmem
        · show j < k; omega
        · exact hp'.1 c hmem

/-- Every byte write keeps the canonical form. -/
theorem Memory.wf_write {m : Memory} (h : m.wf) (a : Word) (v : Byte) : (m.write a v).wf := by
  unfold Memory.write
  split
  · exact ⟨h.1.filter _, fun c hc => h.2 c (List.mem_of_mem_filter hc)⟩
  · rename_i hv
    exact Memory.wf_put h a.isLt hv

theorem Memory.wf_writeWord {m : Memory} (h : m.wf) (a w : Word) : (m.writeWord a w).wf :=
  Memory.wf_write (Memory.wf_write h _ _) _ _

theorem Memory.wf_clear (m : Memory) : m.clear.wf := by unfold Memory.clear; decide

theorem Memory.wf_writeBytes {m : Memory} (h : m.wf) (a : Word) (bs : List Byte) : (m.writeBytes a bs).wf := by
  induction bs generalizing m a with
  | nil => exact h
  | cons b bs ih => exact ih (Memory.wf_write h a b) (a + 1)

theorem reset_mem_wf : State.reset.mem.wf := by decide

/-! ### The bytes of a word (R7, R66) -/

/-- A word's bits: the low byte's, then the high byte's. -/
theorem getLsbD_wordOfBytes (lo hi : Byte) (i : Nat) :
    (wordOfBytes lo hi).getLsbD i = if i < 8 then lo.getLsbD i else hi.getLsbD (i - 8) := by
  show (hi ++ lo).getLsbD i = _
  rw [BitVec.getLsbD_append]

@[simp] theorem loByte_wordOfBytes (lo hi : Byte) : loByte (wordOfBytes lo hi) = lo := by
  apply BitVec.eq_of_getLsbD_eq
  intro i hi
  simp only [loByte, BitVec.getLsbD_extractLsb', getLsbD_wordOfBytes, Nat.zero_add, hi, if_true, decide_true, Bool.true_and]

@[simp] theorem hiByte_wordOfBytes (lo hi : Byte) : hiByte (wordOfBytes lo hi) = hi := by
  apply BitVec.eq_of_getLsbD_eq
  intro i hi
  have h1 : ¬ 8 + i < 8 := by omega
  simp only [hiByte, BitVec.getLsbD_extractLsb', getLsbD_wordOfBytes, h1, hi, if_false, decide_true, Bool.true_and,
    Nat.add_sub_cancel_left]

@[simp] theorem wordOfBytes_bytes (w : Word) : wordOfBytes (loByte w) (hiByte w) = w := by
  apply BitVec.eq_of_getLsbD_eq
  intro i hi
  rw [getLsbD_wordOfBytes]
  simp only [loByte, hiByte, BitVec.getLsbD_extractLsb', Nat.zero_add]
  split
  · simp [*]
  · have h1 : i - 8 < 8 := by omega
    have h2 : 8 + (i - 8) = i := by omega
    rw [h2]; simp [h1]

/-- `wordOfBytes` is the spec's `zext_16(lo) | (zext_16(hi) << 8)` (R63). -/
theorem wordOfBytes_eq_or_shift (lo hi : Byte) :
    wordOfBytes lo hi = (lo.setWidth 16 ||| (hi.setWidth 16 <<< 8)) := by
  apply BitVec.eq_of_getLsbD_eq
  intro i hi'
  rw [getLsbD_wordOfBytes]
  simp only [BitVec.getLsbD_or, BitVec.getLsbD_shiftLeft, BitVec.getLsbD_setWidth]
  by_cases h : i < 8
  · simp [h, hi']
  · have h1 : lo.getLsbD i = false := BitVec.getLsbD_of_ge _ _ (by omega)
    have h2 : i - 8 < 16 := by omega
    simp [h, h1, h2, hi']

/-! ### Stack addresses (R33, R74) -/

theorem stackAddr_toNat (sp : Byte) : (stackAddr sp).toNat = 256 + sp.toNat := by
  have := sp.isLt
  simp [stackAddr, zext16, Config.stackBase, BitVec.toNat_add, BitVec.toNat_setWidth]
  omega

theorem stackAddr_injective {a b : Byte} (h : stackAddr a = stackAddr b) : a = b := by
  have := congrArg BitVec.toNat h
  rw [stackAddr_toNat, stackAddr_toNat] at this
  exact BitVec.eq_of_toNat_eq (by omega)

end Sys2Proof.Machine
end

