-- ==== Sys2Proof/Laws/State.lean ====
section
/-! SUPPORT. What each shared update of a state does to each field, field by field, true by definition. -/

namespace Sys2Proof.Machine

variable (s : State)

/-! ### charge -/

@[simp] theorem charge_A (n : Nat) : (charge n s).A = s.A := rfl
@[simp] theorem charge_X (n : Nat) : (charge n s).X = s.X := rfl
@[simp] theorem charge_Y (n : Nat) : (charge n s).Y = s.Y := rfl
@[simp] theorem charge_SP (n : Nat) : (charge n s).SP = s.SP := rfl
@[simp] theorem charge_PC (n : Nat) : (charge n s).PC = s.PC := rfl
@[simp] theorem charge_P (n : Nat) : (charge n s).P = s.P := rfl
@[simp] theorem charge_mem (n : Nat) : (charge n s).mem = s.mem := rfl
@[simp] theorem charge_budget (n : Nat) : (charge n s).budget = s.budget - n := rfl

/-! ### internal -/

@[simp] theorem internal_A (n : Nat) : (internal n s).A = s.A := rfl
@[simp] theorem internal_X (n : Nat) : (internal n s).X = s.X := rfl
@[simp] theorem internal_Y (n : Nat) : (internal n s).Y = s.Y := rfl
@[simp] theorem internal_SP (n : Nat) : (internal n s).SP = s.SP := rfl
@[simp] theorem internal_PC (n : Nat) : (internal n s).PC = s.PC := rfl
@[simp] theorem internal_P (n : Nat) : (internal n s).P = s.P := rfl
@[simp] theorem internal_mem (n : Nat) : (internal n s).mem = s.mem := rfl
@[simp] theorem internal_budget (n : Nat) : (internal n s).budget = s.budget - n := rfl

/-! ### fetchOpcode -/

@[simp] theorem fetchOpcode_A : (fetchOpcode s).A = s.A := rfl
@[simp] theorem fetchOpcode_X : (fetchOpcode s).X = s.X := rfl
@[simp] theorem fetchOpcode_Y : (fetchOpcode s).Y = s.Y := rfl
@[simp] theorem fetchOpcode_SP : (fetchOpcode s).SP = s.SP := rfl
@[simp] theorem fetchOpcode_PC : (fetchOpcode s).PC = s.PC + 1 := rfl
@[simp] theorem fetchOpcode_P : (fetchOpcode s).P = s.P := rfl
@[simp] theorem fetchOpcode_mem : (fetchOpcode s).mem = s.mem := rfl
@[simp] theorem fetchOpcode_budget : (fetchOpcode s).budget = s.budget - 1 := rfl

/-! ### fetchByte -/

@[simp] theorem fetchByte_A : (fetchByte s).A = s.A := rfl
@[simp] theorem fetchByte_X : (fetchByte s).X = s.X := rfl
@[simp] theorem fetchByte_Y : (fetchByte s).Y = s.Y := rfl
@[simp] theorem fetchByte_SP : (fetchByte s).SP = s.SP := rfl
@[simp] theorem fetchByte_PC : (fetchByte s).PC = s.PC + 1 := rfl
@[simp] theorem fetchByte_P : (fetchByte s).P = s.P := rfl
@[simp] theorem fetchByte_mem : (fetchByte s).mem = s.mem := rfl
@[simp] theorem fetchByte_budget : (fetchByte s).budget = s.budget - 1 := rfl

/-! ### fetchWord -/

@[simp] theorem fetchWord_A : (fetchWord s).A = s.A := rfl
@[simp] theorem fetchWord_X : (fetchWord s).X = s.X := rfl
@[simp] theorem fetchWord_Y : (fetchWord s).Y = s.Y := rfl
@[simp] theorem fetchWord_SP : (fetchWord s).SP = s.SP := rfl
@[simp] theorem fetchWord_PC : (fetchWord s).PC = s.PC + 2 := rfl
@[simp] theorem fetchWord_P : (fetchWord s).P = s.P := rfl
@[simp] theorem fetchWord_mem : (fetchWord s).mem = s.mem := rfl
@[simp] theorem fetchWord_budget : (fetchWord s).budget = s.budget - 2 := rfl

/-! ### memWrite1 -/

@[simp] theorem memWrite1_A (a : Word) (v : Byte) : (memWrite1 a v s).A = s.A := rfl
@[simp] theorem memWrite1_X (a : Word) (v : Byte) : (memWrite1 a v s).X = s.X := rfl
@[simp] theorem memWrite1_Y (a : Word) (v : Byte) : (memWrite1 a v s).Y = s.Y := rfl
@[simp] theorem memWrite1_SP (a : Word) (v : Byte) : (memWrite1 a v s).SP = s.SP := rfl
@[simp] theorem memWrite1_PC (a : Word) (v : Byte) : (memWrite1 a v s).PC = s.PC := rfl
@[simp] theorem memWrite1_P (a : Word) (v : Byte) : (memWrite1 a v s).P = s.P := rfl
@[simp] theorem memWrite1_mem (a : Word) (v : Byte) : (memWrite1 a v s).mem = s.mem.write a v := rfl
@[simp] theorem memWrite1_budget (a : Word) (v : Byte) : (memWrite1 a v s).budget = s.budget - 1 := rfl

/-! ### writeFlag -/

@[simp] theorem writeFlag_A (f : Flag) (v : Bool) : (writeFlag f v s).A = s.A := rfl
@[simp] theorem writeFlag_X (f : Flag) (v : Bool) : (writeFlag f v s).X = s.X := rfl
@[simp] theorem writeFlag_Y (f : Flag) (v : Bool) : (writeFlag f v s).Y = s.Y := rfl
@[simp] theorem writeFlag_SP (f : Flag) (v : Bool) : (writeFlag f v s).SP = s.SP := rfl
@[simp] theorem writeFlag_PC (f : Flag) (v : Bool) : (writeFlag f v s).PC = s.PC := rfl
@[simp] theorem writeFlag_P (f : Flag) (v : Bool) : (writeFlag f v s).P = setFlag s.P f v := rfl
@[simp] theorem writeFlag_mem (f : Flag) (v : Bool) : (writeFlag f v s).mem = s.mem := rfl
@[simp] theorem writeFlag_budget (f : Flag) (v : Bool) : (writeFlag f v s).budget = s.budget := rfl

/-! ### setZN -/

@[simp] theorem setZN_A (v : Byte) : (setZN v s).A = s.A := rfl
@[simp] theorem setZN_X (v : Byte) : (setZN v s).X = s.X := rfl
@[simp] theorem setZN_Y (v : Byte) : (setZN v s).Y = s.Y := rfl
@[simp] theorem setZN_SP (v : Byte) : (setZN v s).SP = s.SP := rfl
@[simp] theorem setZN_PC (v : Byte) : (setZN v s).PC = s.PC := rfl
@[simp] theorem setZN_P (v : Byte) : (setZN v s).P = setFlag (setFlag s.P .Z (v == 0x00#8)) .N (v.getLsbD 7) := rfl
@[simp] theorem setZN_mem (v : Byte) : (setZN v s).mem = s.mem := rfl
@[simp] theorem setZN_budget (v : Byte) : (setZN v s).budget = s.budget := rfl

/-! ### pushByte -/

@[simp] theorem pushByte_A (v : Byte) : (pushByte v s).A = s.A := rfl
@[simp] theorem pushByte_X (v : Byte) : (pushByte v s).X = s.X := rfl
@[simp] theorem pushByte_Y (v : Byte) : (pushByte v s).Y = s.Y := rfl
@[simp] theorem pushByte_SP (v : Byte) : (pushByte v s).SP = s.SP - 1 := rfl
@[simp] theorem pushByte_PC (v : Byte) : (pushByte v s).PC = s.PC := rfl
@[simp] theorem pushByte_P (v : Byte) : (pushByte v s).P = s.P := rfl
@[simp] theorem pushByte_mem (v : Byte) : (pushByte v s).mem = s.mem.write (stackAddr s.SP) v := rfl
@[simp] theorem pushByte_budget (v : Byte) : (pushByte v s).budget = s.budget - 1 := rfl

/-! ### pushWord -/

@[simp] theorem pushWord_A (w : Word) : (pushWord w s).A = s.A := rfl
@[simp] theorem pushWord_X (w : Word) : (pushWord w s).X = s.X := rfl
@[simp] theorem pushWord_Y (w : Word) : (pushWord w s).Y = s.Y := rfl
@[simp] theorem pushWord_SP (w : Word) : (pushWord w s).SP = s.SP - 2 := rfl
@[simp] theorem pushWord_PC (w : Word) : (pushWord w s).PC = s.PC := rfl
@[simp] theorem pushWord_P (w : Word) : (pushWord w s).P = s.P := rfl
@[simp] theorem pushWord_mem (w : Word) : (pushWord w s).mem = (s.mem.write (stackAddr s.SP) (hiByte w)).write (stackAddr (s.SP - 1)) (loByte w) := rfl
@[simp] theorem pushWord_budget (w : Word) : (pushWord w s).budget = s.budget - 1 - 1 := rfl

/-! ### chargeIfCrossed: only the budget moves -/

/-- A page cross charges one cycle and touches nothing else (R134, R141). -/
theorem chargeIfCrossed_eq (a b : Word) :
    chargeIfCrossed a b s = { s with budget := s.budget - (if crossed a b then 1 else 0) } := by
  unfold chargeIfCrossed
  split
  · rfl
  · simp

@[simp] theorem chargeIfCrossed_A (a b : Word) : (chargeIfCrossed a b s).A = s.A := by
  rw [chargeIfCrossed_eq]

@[simp] theorem chargeIfCrossed_X (a b : Word) : (chargeIfCrossed a b s).X = s.X := by
  rw [chargeIfCrossed_eq]

@[simp] theorem chargeIfCrossed_Y (a b : Word) : (chargeIfCrossed a b s).Y = s.Y := by
  rw [chargeIfCrossed_eq]

@[simp] theorem chargeIfCrossed_SP (a b : Word) : (chargeIfCrossed a b s).SP = s.SP := by
  rw [chargeIfCrossed_eq]

@[simp] theorem chargeIfCrossed_PC (a b : Word) : (chargeIfCrossed a b s).PC = s.PC := by
  rw [chargeIfCrossed_eq]

@[simp] theorem chargeIfCrossed_P (a b : Word) : (chargeIfCrossed a b s).P = s.P := by
  rw [chargeIfCrossed_eq]

@[simp] theorem chargeIfCrossed_mem (a b : Word) : (chargeIfCrossed a b s).mem = s.mem := by
  rw [chargeIfCrossed_eq]

@[simp] theorem chargeIfCrossed_budget (a b : Word) :
    (chargeIfCrossed a b s).budget = s.budget - (if crossed a b then 1 else 0) := by
  rw [chargeIfCrossed_eq]

end Sys2Proof.Machine
end

