-- ==== Sys2Proof/Laws/Operands.lean ====
section
/-! SUPPORT. What each addressing mode gives after the opcode fetch: the effective address, and the state with the
whole instruction's bytes behind PC and the fetch and mode cycles charged (40_fetch_and_addressing.md R125, R130 to R142). -/

namespace Sys2Proof.Machine

variable (s : State)

/-- Two states that agree but for a budget written in two ways. -/
theorem state_pc_budget {s : State} {pc pc' : Word} {b b' : Int} (hpc : pc = pc') (hb : b = b') :
    ({ s with PC := pc, budget := b } : State) = { s with PC := pc', budget := b' } := by rw [hpc, hb]

theorem pc_after_two (pc : Word) : pc + 1 + 1 = pc + 2 := by bv_omega

theorem pc_after_three (pc : Word) : pc + 1 + 2 = pc + 3 := by bv_omega

theorem fetchOpcode_eq : fetchOpcode s = { s with PC := s.PC + 1, budget := s.budget - 1 } := rfl

/-- Opcode and operand byte are behind PC (R120, R121). -/
theorem fetchByte_fetchOpcode : fetchByte (fetchOpcode s) = { s with PC := s.PC + 2, budget := s.budget - 2 } :=
  state_pc_budget (pc_after_two s.PC) (by show s.budget - 1 - 1 = _; omega)

/-- Opcode and operand word are behind PC (R120, R122). -/
theorem fetchWord_fetchOpcode : fetchWord (fetchOpcode s) = { s with PC := s.PC + 3, budget := s.budget - 3 } :=
  state_pc_budget (pc_after_three s.PC) (by show s.budget - 1 - 2 = _; omega)

theorem charge_budget_eq (n : Nat) (pc : Word) (b b' : Int) (h : b - n = b') :
    charge n { s with PC := pc, budget := b } = { s with PC := pc, budget := b' } := by subst h; rfl

/-- R130: 2 cycles in all. -/
theorem immediate_fetchOpcode (imm : Byte) :
    immediate imm (fetchOpcode s) = (imm, { s with PC := s.PC + 2, budget := s.budget - 2 }) := by
  rw [immediate, fetchByte_fetchOpcode]

/-- R131: cost 1. -/
theorem zeroPage_fetchOpcode (zp : Byte) :
    zeroPage zp (fetchOpcode s) = (zext16 zp, { s with PC := s.PC + 2, budget := s.budget - 2 }) := by
  rw [zeroPage, fetchByte_fetchOpcode]

theorem zeroPageIndexed_fetchOpcode (zp idx : Byte) :
    zeroPageIndexed zp idx (fetchOpcode s) =
      (zext16 (zp + idx), { s with PC := s.PC + 2, budget := s.budget - 3 }) := by
  rw [zeroPageIndexed, fetchByte_fetchOpcode, internal, charge_budget_eq s 1 _ _ (s.budget - 3) (by omega)]

/-- R132: cost 2. -/
theorem zeroPageX_fetchOpcode (zp : Byte) :
    zeroPageX zp (fetchOpcode s) = (zext16 (zp + s.X), { s with PC := s.PC + 2, budget := s.budget - 3 }) :=
  zeroPageIndexed_fetchOpcode s zp s.X

/-- R132: cost 2. -/
theorem zeroPageY_fetchOpcode (zp : Byte) :
    zeroPageY zp (fetchOpcode s) = (zext16 (zp + s.Y), { s with PC := s.PC + 2, budget := s.budget - 3 }) :=
  zeroPageIndexed_fetchOpcode s zp s.Y

/-- R133: cost 2. -/
theorem absolute_fetchOpcode (addr : Word) :
    absolute addr (fetchOpcode s) = (addr, { s with PC := s.PC + 3, budget := s.budget - 3 }) := by
  rw [absolute, fetchWord_fetchOpcode]

/-- The cycle of a page cross as a number (R141). -/
def crossCycles (a b : Word) : Int := if crossed a b then 1 else 0

theorem chargeIfCrossed_budget_eq (a b pc : Word) (c : Int) :
    chargeIfCrossed a b { s with PC := pc, budget := c } = { s with PC := pc, budget := c - crossCycles a b } :=
  chargeIfCrossed_eq _ a b

theorem absoluteIndexed_fetchOpcode (base : Word) (idx : Byte) :
    absoluteIndexed base idx (fetchOpcode s) =
      (base + zext16 idx,
        { s with PC := s.PC + 3, budget := s.budget - 3 - crossCycles base (base + zext16 idx) }) := by
  rw [absoluteIndexed, fetchWord_fetchOpcode, chargeIfCrossed_budget_eq]

/-- R134: cost 2, plus 1 on a page cross. -/
theorem absoluteX_fetchOpcode (base : Word) :
    absoluteX base (fetchOpcode s) =
      (base + zext16 s.X,
        { s with PC := s.PC + 3, budget := s.budget - 3 - crossCycles base (base + zext16 s.X) }) :=
  absoluteIndexed_fetchOpcode s base s.X

/-- R134: cost 2, plus 1 on a page cross. -/
theorem absoluteY_fetchOpcode (base : Word) :
    absoluteY base (fetchOpcode s) =
      (base + zext16 s.Y,
        { s with PC := s.PC + 3, budget := s.budget - 3 - crossCycles base (base + zext16 s.Y) }) :=
  absoluteIndexed_fetchOpcode s base s.Y

theorem absoluteIndexedStore_fetchOpcode (base : Word) (idx : Byte) :
    absoluteIndexedStore base idx (fetchOpcode s) =
      (base + zext16 idx, { s with PC := s.PC + 3, budget := s.budget - 4 }) := by
  rw [absoluteIndexedStore, fetchWord_fetchOpcode, internal, charge_budget_eq s 1 _ _ (s.budget - 4) (by omega)]

/-- R135: cost 3, fixed. -/
theorem absoluteXStore_fetchOpcode (base : Word) :
    absoluteXStore base (fetchOpcode s) =
      (base + zext16 s.X, { s with PC := s.PC + 3, budget := s.budget - 4 }) :=
  absoluteIndexedStore_fetchOpcode s base s.X

/-- R135: cost 3, fixed. -/
theorem absoluteYStore_fetchOpcode (base : Word) :
    absoluteYStore base (fetchOpcode s) =
      (base + zext16 s.Y, { s with PC := s.PC + 3, budget := s.budget - 4 }) :=
  absoluteIndexedStore_fetchOpcode s base s.Y

/-- R136: cost 4; with the parameter of R6 as fixed, the pointer is the plain word at its address. -/
theorem indirect_fetchOpcode (ptr : Word) :
    indirect ptr (fetchOpcode s) = (s.mem.readWord ptr, { s with PC := s.PC + 3, budget := s.budget - 5 }) := by
  rw [indirect, fetchWord_fetchOpcode, charge_budget_eq s 2 _ _ (s.budget - 5) (by omega)]
  rfl

/-- With the parameter of R6 as fixed, a zero-page pointer is the plain word at its address (R137, D3). -/
theorem zpPointer_eq_readWord (m : Memory) (zp : Byte) : zpPointer m zp = m.readWord (zext16 zp) := rfl

/-- R137: cost 4. -/
theorem indirectX_fetchOpcode (zp : Byte) :
    indirectX zp (fetchOpcode s) =
      (s.mem.readWord (zext16 (zp + s.X)), { s with PC := s.PC + 2, budget := s.budget - 5 }) := by
  rw [indirectX, fetchByte_fetchOpcode, internal, charge_budget_eq s 1 _ _ (s.budget - 3) (by omega),
    charge_budget_eq s 2 _ _ (s.budget - 5) (by omega)]
  rfl

theorem indirectYBase_fetchOpcode (zp : Byte) :
    indirectYBase zp (fetchOpcode s) =
      (s.mem.readWord (zext16 zp), { s with PC := s.PC + 2, budget := s.budget - 4 }) := by
  rw [indirectYBase, fetchByte_fetchOpcode, charge_budget_eq s 2 _ _ (s.budget - 4) (by omega)]
  rfl

/-- R138: cost 3, plus 1 on a page cross. -/
theorem indirectY_fetchOpcode (zp : Byte) :
    indirectY zp (fetchOpcode s) =
      (s.mem.readWord (zext16 zp) + zext16 s.Y,
        { s with
          PC := s.PC + 2
          budget := s.budget - 4 -
            crossCycles (s.mem.readWord (zext16 zp)) (s.mem.readWord (zext16 zp) + zext16 s.Y) }) := by
  rw [indirectY, indirectYBase_fetchOpcode]
  exact Prod.ext rfl (chargeIfCrossed_budget_eq s _ _ _ _)

/-- R139: cost 4, fixed. -/
theorem indirectYStore_fetchOpcode (zp : Byte) :
    indirectYStore zp (fetchOpcode s) =
      (s.mem.readWord (zext16 zp) + zext16 s.Y, { s with PC := s.PC + 2, budget := s.budget - 5 }) := by
  rw [indirectYStore, indirectYBase_fetchOpcode, internal, charge_budget_eq s 1 _ _ (s.budget - 5) (by omega)]
  rfl

/-- A branch that is not taken goes on at the next instruction in 2 cycles (R240). -/
theorem relative_not_taken (off : Byte) :
    relative false off (fetchOpcode s) = { s with PC := s.PC + 2, budget := s.budget - 2 } := by
  rw [relative, fetchByte_fetchOpcode]; rfl

/-- A taken branch adds the signed offset in 3 cycles, 4 across a page (R240). -/
theorem relative_taken (off : Byte) :
    relative true off (fetchOpcode s) =
      { s with
        PC := s.PC + 2 + sext16 off
        budget := s.budget - 3 - crossCycles (s.PC + 2) (s.PC + 2 + sext16 off) } := by
  rw [relative, fetchByte_fetchOpcode]
  show chargeIfCrossed _ _ (internal 1 { s with PC := s.PC + 2 + sext16 off, budget := s.budget - 2 }) = _
  rw [internal, charge_budget_eq s 1 _ _ (s.budget - 3) (by omega), chargeIfCrossed_budget_eq]

/-! ### Whole-state forms of the shared updates -/

/-- A read operand costs one cycle more (R143). -/
theorem readOperand_eq (a pc : Word) (b : Int) :
    readOperand (a, { s with PC := pc, budget := b }) =
      (s.mem.read a, { s with PC := pc, budget := b - 1 }) := rfl

theorem setZN_eq (v : Byte) :
    setZN v s = { s with P := setFlag (setFlag s.P .Z (v == 0x00#8)) .N (v.getLsbD 7) } := rfl

theorem pushByte_eq (v : Byte) :
    pushByte v s =
      { s with mem := s.mem.write (stackAddr s.SP) v, SP := s.SP - 1, budget := s.budget - 1 } := rfl

theorem pushWord_eq (w : Word) :
    pushWord w s =
      { s with
        mem := (s.mem.write (stackAddr s.SP) (hiByte w)).write (stackAddr (s.SP - 1)) (loByte w)
        SP := s.SP - 2
        budget := s.budget - 2 } := by
  apply State.ext <;> first | rfl | (show s.budget - 1 - 1 = s.budget - 2; omega)

theorem pullByte_eq :
    pullByte s = (s.mem.read (stackAddr (s.SP + 1)), { s with SP := s.SP + 1, budget := s.budget - 1 }) := rfl

theorem pullWord_eq :
    pullWord s =
      (wordOfBytes (s.mem.read (stackAddr (s.SP + 1))) (s.mem.read (stackAddr (s.SP + 2))),
        { s with SP := s.SP + 2, budget := s.budget - 2 }) := by
  refine Prod.ext rfl ?_
  apply State.ext <;> first | rfl | (show s.budget - 1 - 1 = s.budget - 2; omega)

end Sys2Proof.Machine
end

