-- ==== Sys2Proof/Laws/Effect.lean ====
section
/-! SUPPORT. The effect of every instruction in closed form, as one record update of the state before it, proved
equal to `exec`. Frames, invariants and comparisons of two runs read off from these forms field by field. -/

namespace Sys2Proof.Machine

/-! ### The closed forms of each family -/

/-- P with the assignment flags of `v` (R38). -/
def assignZN (p v : Byte) : Byte := setFlag (setFlag p .Z (v == 0x00#8)) .N (v.getLsbD 7)

/-- A loaded, with flags. -/
def withA (s : State) (v : Byte) (len : Word) (cycles : Int) : State :=
  { s with A := v, P := assignZN s.P v, PC := s.PC + len, budget := s.budget - cycles }

/-- X loaded, with flags. -/
def withX (s : State) (v : Byte) (len : Word) (cycles : Int) : State :=
  { s with X := v, P := assignZN s.P v, PC := s.PC + len, budget := s.budget - cycles }

/-- Y loaded, with flags. -/
def withY (s : State) (v : Byte) (len : Word) (cycles : Int) : State :=
  { s with Y := v, P := assignZN s.P v, PC := s.PC + len, budget := s.budget - cycles }

/-- ADC of an operand. -/
def added (s : State) (m : Byte) (len : Word) (cycles : Int) : State :=
  { s with
    A := (adc8 s.A m (getFlag s.P .C)).r
    P := assignZN
      (setFlag (setFlag s.P .C (adc8 s.A m (getFlag s.P .C)).cout) .V (adc8 s.A m (getFlag s.P .C)).v)
      (adc8 s.A m (getFlag s.P .C)).r
    PC := s.PC + len
    budget := s.budget - cycles }

/-- BIT of an operand. -/
def tested (s : State) (m : Byte) (len : Word) (cycles : Int) : State :=
  { s with
    P := setFlag (setFlag (setFlag s.P .Z ((s.A &&& m) == 0x00#8)) .N (m.getLsbD 7)) .V (m.getLsbD 6)
    PC := s.PC + len
    budget := s.budget - cycles }

/-- A byte stored, no flags. -/
def stored (s : State) (a : Word) (v : Byte) (len : Word) (cycles : Int) : State :=
  { s with mem := s.mem.write a v, PC := s.PC + len, budget := s.budget - cycles }

/-- A byte stored, with its flags. -/
def modified (s : State) (a : Word) (v : Byte) (len : Word) (cycles : Int) : State :=
  { s with mem := s.mem.write a v, P := assignZN s.P v, PC := s.PC + len, budget := s.budget - cycles }

/-- One flag written. -/
def flagged (s : State) (f : Flag) (v : Bool) : State :=
  { s with P := setFlag s.P f v, PC := s.PC + 1, budget := s.budget - 2 }

/-- A byte pushed by PHA or PHP. -/
def pushed (s : State) (v : Byte) : State :=
  { s with
    mem := s.mem.write (stackAddr s.SP) v, SP := s.SP - 1, PC := s.PC + 1, budget := s.budget - 3 }

/-- A branch that is taken where the flag has the value `want`. -/
def branched (s : State) (f : Flag) (want : Bool) (off : Byte) : State :=
  { s with
    PC := if getFlag s.P f = want then s.PC + 2 + sext16 off else s.PC + 2
    budget := s.budget -
      (if getFlag s.P f = want then 3 + crossCycles (s.PC + 2) (s.PC + 2 + sext16 off) else 2) }

/-- The state an instruction leaves, in closed form. -/
def effect (i : Instr) (s : State) : State :=
  match i with
  | .ldaImm imm => withA s imm 2 2
  | .ldaZp zp => withA s (s.mem.read (zext16 zp)) 2 3
  | .ldaZpX zp => withA s (s.mem.read (zext16 (zp + s.X))) 2 4
  | .ldaAbs addr => withA s (s.mem.read addr) 3 4
  | .ldaAbsX addr => withA s (s.mem.read (addr + zext16 s.X)) 3 (4 + crossCycles addr (addr + zext16 s.X))
  | .ldaAbsY addr => withA s (s.mem.read (addr + zext16 s.Y)) 3 (4 + crossCycles addr (addr + zext16 s.Y))
  | .ldaIndX zp => withA s (s.mem.read (s.mem.readWord (zext16 (zp + s.X)))) 2 6
  | .ldaIndY zp => withA s (s.mem.read (s.mem.readWord (zext16 zp) + zext16 s.Y)) 2 (5 + crossCycles (s.mem.readWord (zext16 zp)) (s.mem.readWord (zext16 zp) + zext16 s.Y))
  | .ldxImm imm => withX s imm 2 2
  | .ldxZp zp => withX s (s.mem.read (zext16 zp)) 2 3
  | .ldxZpY zp => withX s (s.mem.read (zext16 (zp + s.Y))) 2 4
  | .ldxAbs addr => withX s (s.mem.read addr) 3 4
  | .ldxAbsY addr => withX s (s.mem.read (addr + zext16 s.Y)) 3 (4 + crossCycles addr (addr + zext16 s.Y))
  | .ldyImm imm => withY s imm 2 2
  | .ldyZp zp => withY s (s.mem.read (zext16 zp)) 2 3
  | .ldyZpX zp => withY s (s.mem.read (zext16 (zp + s.X))) 2 4
  | .ldyAbs addr => withY s (s.mem.read addr) 3 4
  | .ldyAbsX addr => withY s (s.mem.read (addr + zext16 s.X)) 3 (4 + crossCycles addr (addr + zext16 s.X))
  | .staZp zp => stored s (zext16 zp) s.A 2 3
  | .staZpX zp => stored s (zext16 (zp + s.X)) s.A 2 4
  | .staAbs addr => stored s addr s.A 3 4
  | .staAbsX addr => stored s (addr + zext16 s.X) s.A 3 5
  | .staAbsY addr => stored s (addr + zext16 s.Y) s.A 3 5
  | .staIndX zp => stored s (s.mem.readWord (zext16 (zp + s.X))) s.A 2 6
  | .staIndY zp => stored s (s.mem.readWord (zext16 zp) + zext16 s.Y) s.A 2 6
  | .stxZp zp => stored s (zext16 zp) s.X 2 3
  | .stxZpY zp => stored s (zext16 (zp + s.Y)) s.X 2 4
  | .stxAbs addr => stored s addr s.X 3 4
  | .styZp zp => stored s (zext16 zp) s.Y 2 3
  | .styZpX zp => stored s (zext16 (zp + s.X)) s.Y 2 4
  | .styAbs addr => stored s addr s.Y 3 4
  | .andImm imm => withA s (s.A &&& imm) 2 2
  | .andZp zp => withA s (s.A &&& (s.mem.read (zext16 zp))) 2 3
  | .andZpX zp => withA s (s.A &&& (s.mem.read (zext16 (zp + s.X)))) 2 4
  | .andAbs addr => withA s (s.A &&& (s.mem.read addr)) 3 4
  | .andAbsX addr => withA s (s.A &&& (s.mem.read (addr + zext16 s.X))) 3 (4 + crossCycles addr (addr + zext16 s.X))
  | .andAbsY addr => withA s (s.A &&& (s.mem.read (addr + zext16 s.Y))) 3 (4 + crossCycles addr (addr + zext16 s.Y))
  | .andIndX zp => withA s (s.A &&& (s.mem.read (s.mem.readWord (zext16 (zp + s.X))))) 2 6
  | .andIndY zp => withA s (s.A &&& (s.mem.read (s.mem.readWord (zext16 zp) + zext16 s.Y))) 2 (5 + crossCycles (s.mem.readWord (zext16 zp)) (s.mem.readWord (zext16 zp) + zext16 s.Y))
  | .oraImm imm => withA s (s.A ||| imm) 2 2
  | .oraZp zp => withA s (s.A ||| (s.mem.read (zext16 zp))) 2 3
  | .oraZpX zp => withA s (s.A ||| (s.mem.read (zext16 (zp + s.X)))) 2 4
  | .oraAbs addr => withA s (s.A ||| (s.mem.read addr)) 3 4
  | .oraAbsX addr => withA s (s.A ||| (s.mem.read (addr + zext16 s.X))) 3 (4 + crossCycles addr (addr + zext16 s.X))
  | .oraAbsY addr => withA s (s.A ||| (s.mem.read (addr + zext16 s.Y))) 3 (4 + crossCycles addr (addr + zext16 s.Y))
  | .oraIndX zp => withA s (s.A ||| (s.mem.read (s.mem.readWord (zext16 (zp + s.X))))) 2 6
  | .oraIndY zp => withA s (s.A ||| (s.mem.read (s.mem.readWord (zext16 zp) + zext16 s.Y))) 2 (5 + crossCycles (s.mem.readWord (zext16 zp)) (s.mem.readWord (zext16 zp) + zext16 s.Y))
  | .eorImm imm => withA s (s.A ^^^ imm) 2 2
  | .eorZp zp => withA s (s.A ^^^ (s.mem.read (zext16 zp))) 2 3
  | .eorZpX zp => withA s (s.A ^^^ (s.mem.read (zext16 (zp + s.X)))) 2 4
  | .eorAbs addr => withA s (s.A ^^^ (s.mem.read addr)) 3 4
  | .eorAbsX addr => withA s (s.A ^^^ (s.mem.read (addr + zext16 s.X))) 3 (4 + crossCycles addr (addr + zext16 s.X))
  | .eorAbsY addr => withA s (s.A ^^^ (s.mem.read (addr + zext16 s.Y))) 3 (4 + crossCycles addr (addr + zext16 s.Y))
  | .eorIndX zp => withA s (s.A ^^^ (s.mem.read (s.mem.readWord (zext16 (zp + s.X))))) 2 6
  | .eorIndY zp => withA s (s.A ^^^ (s.mem.read (s.mem.readWord (zext16 zp) + zext16 s.Y))) 2 (5 + crossCycles (s.mem.readWord (zext16 zp)) (s.mem.readWord (zext16 zp) + zext16 s.Y))
  | .bitZp zp => tested s (s.mem.read (zext16 zp)) 2 3
  | .bitAbs addr => tested s (s.mem.read addr) 3 4
  | .tax => withX s s.A 1 2
  | .tay => withY s s.A 1 2
  | .txa => withA s s.X 1 2
  | .tya => withA s s.Y 1 2
  | .tsx => withX s s.SP 1 2
  | .txs => { s with SP := s.X, PC := s.PC + 1, budget := s.budget - 2 }
  | .pha => pushed s s.A
  | .php => pushed s (pushedP s.P)
  | .pla => { s with A := s.mem.read (stackAddr (s.SP + 1)), P := assignZN s.P (s.mem.read (stackAddr (s.SP + 1))), SP := s.SP + 1, PC := s.PC + 1, budget := s.budget - 4 }
  | .plp => { s with P := pulledP s.P (s.mem.read (stackAddr (s.SP + 1))), SP := s.SP + 1, PC := s.PC + 1, budget := s.budget - 4 }
  | .incZp zp => modified s (zext16 zp) (inc8 (s.mem.read (zext16 zp))) 2 5
  | .incZpX zp => modified s (zext16 (zp + s.X)) (inc8 (s.mem.read (zext16 (zp + s.X)))) 2 6
  | .incAbs addr => modified s addr (inc8 (s.mem.read addr)) 3 6
  | .incAbsX addr => modified s (addr + zext16 s.X) (inc8 (s.mem.read (addr + zext16 s.X))) 3 7
  | .decZp zp => modified s (zext16 zp) (dec8 (s.mem.read (zext16 zp))) 2 5
  | .decZpX zp => modified s (zext16 (zp + s.X)) (dec8 (s.mem.read (zext16 (zp + s.X)))) 2 6
  | .decAbs addr => modified s addr (dec8 (s.mem.read addr)) 3 6
  | .decAbsX addr => modified s (addr + zext16 s.X) (dec8 (s.mem.read (addr + zext16 s.X))) 3 7
  | .inx => withX s (inc8 s.X) 1 2
  | .iny => withY s (inc8 s.Y) 1 2
  | .dex => withX s (dec8 s.X) 1 2
  | .dey => withY s (dec8 s.Y) 1 2
  | .adcImm imm => added s imm 2 2
  | .adcZp zp => added s (s.mem.read (zext16 zp)) 2 3
  | .adcZpX zp => added s (s.mem.read (zext16 (zp + s.X))) 2 4
  | .adcAbs addr => added s (s.mem.read addr) 3 4
  | .adcAbsX addr => added s (s.mem.read (addr + zext16 s.X)) 3 (4 + crossCycles addr (addr + zext16 s.X))
  | .adcAbsY addr => added s (s.mem.read (addr + zext16 s.Y)) 3 (4 + crossCycles addr (addr + zext16 s.Y))
  | .adcIndX zp => added s (s.mem.read (s.mem.readWord (zext16 (zp + s.X)))) 2 6
  | .adcIndY zp => added s (s.mem.read (s.mem.readWord (zext16 zp) + zext16 s.Y)) 2 (5 + crossCycles (s.mem.readWord (zext16 zp)) (s.mem.readWord (zext16 zp) + zext16 s.Y))
  | .clc => flagged s .C false
  | .sec => flagged s .C true
  | .cli => flagged s .I false
  | .sei => flagged s .I true
  | .clv => flagged s .V false
  | .cld => flagged s .D false
  | .sed => flagged s .D true
  | .bpl off => branched s .N false off
  | .bmi off => branched s .N true off
  | .bvc off => branched s .V false off
  | .bvs off => branched s .V true off
  | .bcc off => branched s .C false off
  | .bcs off => branched s .C true off
  | .bne off => branched s .Z false off
  | .beq off => branched s .Z true off
  | .jmpAbs addr => { s with PC := addr, budget := s.budget - 3 }
  | .jmpInd ptr => { s with PC := s.mem.readWord ptr, budget := s.budget - 5 }
  | .jsr addr => { s with
      mem := (s.mem.write (stackAddr s.SP) (hiByte (s.PC + 2))).write (stackAddr (s.SP - 1)) (loByte (s.PC + 2))
      SP := s.SP - 2, PC := addr, budget := s.budget - 6 }
  | .rts => { s with
      PC := wordOfBytes (s.mem.read (stackAddr (s.SP + 1))) (s.mem.read (stackAddr (s.SP + 2))) + 1
      SP := s.SP + 2, budget := s.budget - 6 }
  | .nop => { s with PC := s.PC + 1, budget := s.budget - 2 }

/-! ### Each shared operation in closed form -/

section forms

variable {s : State} {ea len : Word} {b c : Int} {r : Word × State}

theorem loadA_imm (s : State) (imm : Byte) : loadA (immediate imm (fetchOpcode s)) = withA s imm 2 2 := by
  rw [immediate_fetchOpcode]; rfl

theorem loadX_imm (s : State) (imm : Byte) : loadX (immediate imm (fetchOpcode s)) = withX s imm 2 2 := by
  rw [immediate_fetchOpcode]; rfl

theorem loadY_imm (s : State) (imm : Byte) : loadY (immediate imm (fetchOpcode s)) = withY s imm 2 2 := by
  rw [immediate_fetchOpcode]; rfl

theorem combineA_imm (s : State) (f : Byte → Byte → Byte) (imm : Byte) :
    combineA f (immediate imm (fetchOpcode s)) = withA s (f s.A imm) 2 2 := by
  rw [immediate_fetchOpcode]; rfl

theorem addWithCarry_imm (s : State) (imm : Byte) :
    addWithCarry (immediate imm (fetchOpcode s)) = added s imm 2 2 := by
  rw [immediate_fetchOpcode]; rfl

theorem loadA_of (h : r = (ea, { s with PC := s.PC + len, budget := b })) (hb : b - 1 = s.budget - c) :
    loadA (readOperand r) = withA s (s.mem.read ea) len c := by
  rw [h, readOperand_eq, hb]; rfl

theorem loadX_of (h : r = (ea, { s with PC := s.PC + len, budget := b })) (hb : b - 1 = s.budget - c) :
    loadX (readOperand r) = withX s (s.mem.read ea) len c := by
  rw [h, readOperand_eq, hb]; rfl

theorem loadY_of (h : r = (ea, { s with PC := s.PC + len, budget := b })) (hb : b - 1 = s.budget - c) :
    loadY (readOperand r) = withY s (s.mem.read ea) len c := by
  rw [h, readOperand_eq, hb]; rfl

theorem combineA_of (f : Byte → Byte → Byte) (h : r = (ea, { s with PC := s.PC + len, budget := b }))
    (hb : b - 1 = s.budget - c) : combineA f (readOperand r) = withA s (f s.A (s.mem.read ea)) len c := by
  rw [h, readOperand_eq, hb]; rfl

theorem addWithCarry_of (h : r = (ea, { s with PC := s.PC + len, budget := b })) (hb : b - 1 = s.budget - c) :
    addWithCarry (readOperand r) = added s (s.mem.read ea) len c := by
  rw [h, readOperand_eq, hb]; rfl

theorem bitTest_of (h : r = (ea, { s with PC := s.PC + len, budget := b })) (hb : b - 1 = s.budget - c) :
    bitTest (readOperand r) = tested s (s.mem.read ea) len c := by
  rw [h, readOperand_eq, hb]; rfl

theorem storeAt_of (v : Byte) (h : r = (ea, { s with PC := s.PC + len, budget := b }))
    (hb : b - 1 = s.budget - c) : storeAt v r = stored s ea v len c := by
  rw [h, stored, ← hb]; rfl

theorem modifyAt_of (f : Byte → Byte) (h : r = (ea, { s with PC := s.PC + len, budget := b }))
    (hb : b - 1 - 1 - 1 = s.budget - c) : modifyAt f r = modified s ea (f (s.mem.read ea)) len c := by
  rw [h, modified, ← hb]; rfl

theorem jumpTo_of (h : r = (ea, { s with PC := s.PC + len, budget := b })) :
    jumpTo r = { s with PC := ea, budget := b } := by
  rw [h]; rfl

end forms

variable (s : State)

/-- An implied instruction's opcode and its one internal cycle (R142). -/
theorem internal_fetchOpcode : internal 1 (fetchOpcode s) = { s with PC := s.PC + 1, budget := s.budget - 2 } :=
  state_pc_budget rfl (by show s.budget - 1 - 1 = _; omega)

theorem afterTransferCycle_eq : afterTransferCycle s = { s with PC := s.PC + 1, budget := s.budget - 2 } :=
  internal_fetchOpcode s

theorem afterAluCycle_eq : afterAluCycle s = { s with PC := s.PC + 1, budget := s.budget - 2 } :=
  internal_fetchOpcode s

theorem nop_eq : internal 1 (fetchOpcode s) = { s with PC := s.PC + 1, budget := s.budget - 2 } :=
  internal_fetchOpcode s

theorem assignFlag_eq (f : Flag) (v : Bool) : assignFlag f v s = flagged s f v := by
  rw [assignFlag, internal_fetchOpcode]; rfl

theorem pushed_eq (v : Byte) : internal 1 (pushByte v (fetchOpcode s)) = pushed s v := by
  rw [pushed, show s.budget - 3 = s.budget - 1 - 1 - 1 by omega]; rfl

theorem pla_eq :
    pulledIntoA (pullByte (fetchOpcode s)) =
      { s with
        A := s.mem.read (stackAddr (s.SP + 1)), P := assignZN s.P (s.mem.read (stackAddr (s.SP + 1)))
        SP := s.SP + 1, PC := s.PC + 1, budget := s.budget - 4 } := by
  rw [show s.budget - 4 = s.budget - 1 - 1 - 2 by omega]; rfl

theorem plp_eq :
    pulledIntoP (pullByte (fetchOpcode s)) =
      { s with
        P := pulledP s.P (s.mem.read (stackAddr (s.SP + 1))), SP := s.SP + 1, PC := s.PC + 1
        budget := s.budget - 4 } := by
  rw [show s.budget - 4 = s.budget - 1 - 1 - 2 by omega]; rfl

theorem branchIf_eq (f : Flag) (want : Bool) (off : Byte) : branchIf f want off s = branched s f want off := by
  unfold branchIf branched
  by_cases h : getFlag s.P f = want
  · rw [h, beq_self_eq_true, relative_taken, if_pos rfl, if_pos rfl]
    exact state_pc_budget rfl (by omega)
  · rw [beq_false_of_ne h, relative_not_taken, if_neg h, if_neg h]

theorem callSubroutine_eq (target : Word) :
    callSubroutine target (fetchOpcode s) =
      { s with
        mem := (s.mem.write (stackAddr s.SP) (hiByte (s.PC + 2))).write (stackAddr (s.SP - 1)) (loByte (s.PC + 2))
        SP := s.SP - 2, PC := target, budget := s.budget - 6 } := by
  have hpc : s.PC + 3 - 1 = s.PC + 2 := by bv_omega
  rw [callSubroutine, absolute_fetchOpcode]
  show State.mk _ _ _ _ _ _ _ _ = State.mk _ _ _ _ _ _ _ _
  rw [← hpc, show s.budget - 6 = s.budget - 3 - 1 - 1 - 1 by omega]
  rfl

theorem returnFromSubroutine_eq :
    returnFromSubroutine (fetchOpcode s) =
      { s with
        PC := wordOfBytes (s.mem.read (stackAddr (s.SP + 1))) (s.mem.read (stackAddr (s.SP + 2))) + 1
        SP := s.SP + 2, budget := s.budget - 6 } := by
  rw [show s.budget - 6 = s.budget - 1 - 1 - 1 - 3 by omega]; rfl

theorem execTax_eq : execTax s = .next (effect .tax s) := by
  rw [execTax, afterTransferCycle_eq]; rfl

theorem execTay_eq : execTay s = .next (effect .tay s) := by
  rw [execTay, afterTransferCycle_eq]; rfl

theorem execTxa_eq : execTxa s = .next (effect .txa s) := by
  rw [execTxa, afterTransferCycle_eq]; rfl

theorem execTya_eq : execTya s = .next (effect .tya s) := by
  rw [execTya, afterTransferCycle_eq]; rfl

theorem execTsx_eq : execTsx s = .next (effect .tsx s) := by
  rw [execTsx, afterTransferCycle_eq]; rfl

theorem execTxs_eq : execTxs s = .next (effect .txs s) := by
  rw [execTxs, afterTransferCycle_eq]; rfl

theorem execInx_eq : execInx s = .next (effect .inx s) := by
  rw [execInx, afterAluCycle_eq]; rfl

theorem execIny_eq : execIny s = .next (effect .iny s) := by
  rw [execIny, afterAluCycle_eq]; rfl

theorem execDex_eq : execDex s = .next (effect .dex s) := by
  rw [execDex, afterAluCycle_eq]; rfl

theorem execDey_eq : execDey s = .next (effect .dey s) := by
  rw [execDey, afterAluCycle_eq]; rfl

/-! ### The closed form is exec -/

/-- Every instruction ends in the next state that `effect` gives. -/
theorem exec_eq_effect (i : Instr) : exec i s = .next (effect i s) := by
  cases i with
  | ldaImm imm => exact congrArg Host.Outcome.next (loadA_imm s imm)
  | ldaZp zp => exact congrArg Host.Outcome.next (loadA_of (zeroPage_fetchOpcode s zp) (by omega))
  | ldaZpX zp => exact congrArg Host.Outcome.next (loadA_of (zeroPageX_fetchOpcode s zp) (by omega))
  | ldaAbs addr => exact congrArg Host.Outcome.next (loadA_of (absolute_fetchOpcode s addr) (by omega))
  | ldaAbsX addr => exact congrArg Host.Outcome.next (loadA_of (absoluteX_fetchOpcode s addr) (by omega))
  | ldaAbsY addr => exact congrArg Host.Outcome.next (loadA_of (absoluteY_fetchOpcode s addr) (by omega))
  | ldaIndX zp => exact congrArg Host.Outcome.next (loadA_of (indirectX_fetchOpcode s zp) (by omega))
  | ldaIndY zp => exact congrArg Host.Outcome.next (loadA_of (indirectY_fetchOpcode s zp) (by omega))
  | ldxImm imm => exact congrArg Host.Outcome.next (loadX_imm s imm)
  | ldxZp zp => exact congrArg Host.Outcome.next (loadX_of (zeroPage_fetchOpcode s zp) (by omega))
  | ldxZpY zp => exact congrArg Host.Outcome.next (loadX_of (zeroPageY_fetchOpcode s zp) (by omega))
  | ldxAbs addr => exact congrArg Host.Outcome.next (loadX_of (absolute_fetchOpcode s addr) (by omega))
  | ldxAbsY addr => exact congrArg Host.Outcome.next (loadX_of (absoluteY_fetchOpcode s addr) (by omega))
  | ldyImm imm => exact congrArg Host.Outcome.next (loadY_imm s imm)
  | ldyZp zp => exact congrArg Host.Outcome.next (loadY_of (zeroPage_fetchOpcode s zp) (by omega))
  | ldyZpX zp => exact congrArg Host.Outcome.next (loadY_of (zeroPageX_fetchOpcode s zp) (by omega))
  | ldyAbs addr => exact congrArg Host.Outcome.next (loadY_of (absolute_fetchOpcode s addr) (by omega))
  | ldyAbsX addr => exact congrArg Host.Outcome.next (loadY_of (absoluteX_fetchOpcode s addr) (by omega))
  | staZp zp => exact congrArg Host.Outcome.next (storeAt_of _ (zeroPage_fetchOpcode s zp) (by omega))
  | staZpX zp => exact congrArg Host.Outcome.next (storeAt_of _ (zeroPageX_fetchOpcode s zp) (by omega))
  | staAbs addr => exact congrArg Host.Outcome.next (storeAt_of _ (absolute_fetchOpcode s addr) (by omega))
  | staAbsX addr => exact congrArg Host.Outcome.next (storeAt_of _ (absoluteXStore_fetchOpcode s addr) (by omega))
  | staAbsY addr => exact congrArg Host.Outcome.next (storeAt_of _ (absoluteYStore_fetchOpcode s addr) (by omega))
  | staIndX zp => exact congrArg Host.Outcome.next (storeAt_of _ (indirectX_fetchOpcode s zp) (by omega))
  | staIndY zp => exact congrArg Host.Outcome.next (storeAt_of _ (indirectYStore_fetchOpcode s zp) (by omega))
  | stxZp zp => exact congrArg Host.Outcome.next (storeAt_of _ (zeroPage_fetchOpcode s zp) (by omega))
  | stxZpY zp => exact congrArg Host.Outcome.next (storeAt_of _ (zeroPageY_fetchOpcode s zp) (by omega))
  | stxAbs addr => exact congrArg Host.Outcome.next (storeAt_of _ (absolute_fetchOpcode s addr) (by omega))
  | styZp zp => exact congrArg Host.Outcome.next (storeAt_of _ (zeroPage_fetchOpcode s zp) (by omega))
  | styZpX zp => exact congrArg Host.Outcome.next (storeAt_of _ (zeroPageX_fetchOpcode s zp) (by omega))
  | styAbs addr => exact congrArg Host.Outcome.next (storeAt_of _ (absolute_fetchOpcode s addr) (by omega))
  | andImm imm => exact congrArg Host.Outcome.next (combineA_imm s _ imm)
  | andZp zp => exact congrArg Host.Outcome.next (combineA_of _ (zeroPage_fetchOpcode s zp) (by omega))
  | andZpX zp => exact congrArg Host.Outcome.next (combineA_of _ (zeroPageX_fetchOpcode s zp) (by omega))
  | andAbs addr => exact congrArg Host.Outcome.next (combineA_of _ (absolute_fetchOpcode s addr) (by omega))
  | andAbsX addr => exact congrArg Host.Outcome.next (combineA_of _ (absoluteX_fetchOpcode s addr) (by omega))
  | andAbsY addr => exact congrArg Host.Outcome.next (combineA_of _ (absoluteY_fetchOpcode s addr) (by omega))
  | andIndX zp => exact congrArg Host.Outcome.next (combineA_of _ (indirectX_fetchOpcode s zp) (by omega))
  | andIndY zp => exact congrArg Host.Outcome.next (combineA_of _ (indirectY_fetchOpcode s zp) (by omega))
  | oraImm imm => exact congrArg Host.Outcome.next (combineA_imm s _ imm)
  | oraZp zp => exact congrArg Host.Outcome.next (combineA_of _ (zeroPage_fetchOpcode s zp) (by omega))
  | oraZpX zp => exact congrArg Host.Outcome.next (combineA_of _ (zeroPageX_fetchOpcode s zp) (by omega))
  | oraAbs addr => exact congrArg Host.Outcome.next (combineA_of _ (absolute_fetchOpcode s addr) (by omega))
  | oraAbsX addr => exact congrArg Host.Outcome.next (combineA_of _ (absoluteX_fetchOpcode s addr) (by omega))
  | oraAbsY addr => exact congrArg Host.Outcome.next (combineA_of _ (absoluteY_fetchOpcode s addr) (by omega))
  | oraIndX zp => exact congrArg Host.Outcome.next (combineA_of _ (indirectX_fetchOpcode s zp) (by omega))
  | oraIndY zp => exact congrArg Host.Outcome.next (combineA_of _ (indirectY_fetchOpcode s zp) (by omega))
  | eorImm imm => exact congrArg Host.Outcome.next (combineA_imm s _ imm)
  | eorZp zp => exact congrArg Host.Outcome.next (combineA_of _ (zeroPage_fetchOpcode s zp) (by omega))
  | eorZpX zp => exact congrArg Host.Outcome.next (combineA_of _ (zeroPageX_fetchOpcode s zp) (by omega))
  | eorAbs addr => exact congrArg Host.Outcome.next (combineA_of _ (absolute_fetchOpcode s addr) (by omega))
  | eorAbsX addr => exact congrArg Host.Outcome.next (combineA_of _ (absoluteX_fetchOpcode s addr) (by omega))
  | eorAbsY addr => exact congrArg Host.Outcome.next (combineA_of _ (absoluteY_fetchOpcode s addr) (by omega))
  | eorIndX zp => exact congrArg Host.Outcome.next (combineA_of _ (indirectX_fetchOpcode s zp) (by omega))
  | eorIndY zp => exact congrArg Host.Outcome.next (combineA_of _ (indirectY_fetchOpcode s zp) (by omega))
  | bitZp zp => exact congrArg Host.Outcome.next (bitTest_of (zeroPage_fetchOpcode s zp) (by omega))
  | bitAbs addr => exact congrArg Host.Outcome.next (bitTest_of (absolute_fetchOpcode s addr) (by omega))
  | tax => exact execTax_eq s
  | tay => exact execTay_eq s
  | txa => exact execTxa_eq s
  | tya => exact execTya_eq s
  | tsx => exact execTsx_eq s
  | txs => exact execTxs_eq s
  | pha => exact congrArg Host.Outcome.next (pushed_eq s s.A)
  | php => exact congrArg Host.Outcome.next (pushed_eq s (pushedP s.P))
  | pla => exact congrArg Host.Outcome.next (pla_eq s)
  | plp => exact congrArg Host.Outcome.next (plp_eq s)
  | incZp zp => exact congrArg Host.Outcome.next (modifyAt_of _ (zeroPage_fetchOpcode s zp) (by omega))
  | incZpX zp => exact congrArg Host.Outcome.next (modifyAt_of _ (zeroPageX_fetchOpcode s zp) (by omega))
  | incAbs addr => exact congrArg Host.Outcome.next (modifyAt_of _ (absolute_fetchOpcode s addr) (by omega))
  | incAbsX addr => exact congrArg Host.Outcome.next (modifyAt_of _ (absoluteXStore_fetchOpcode s addr) (by omega))
  | decZp zp => exact congrArg Host.Outcome.next (modifyAt_of _ (zeroPage_fetchOpcode s zp) (by omega))
  | decZpX zp => exact congrArg Host.Outcome.next (modifyAt_of _ (zeroPageX_fetchOpcode s zp) (by omega))
  | decAbs addr => exact congrArg Host.Outcome.next (modifyAt_of _ (absolute_fetchOpcode s addr) (by omega))
  | decAbsX addr => exact congrArg Host.Outcome.next (modifyAt_of _ (absoluteXStore_fetchOpcode s addr) (by omega))
  | inx => exact execInx_eq s
  | iny => exact execIny_eq s
  | dex => exact execDex_eq s
  | dey => exact execDey_eq s
  | adcImm imm => exact congrArg Host.Outcome.next (addWithCarry_imm s imm)
  | adcZp zp => exact congrArg Host.Outcome.next (addWithCarry_of (zeroPage_fetchOpcode s zp) (by omega))
  | adcZpX zp => exact congrArg Host.Outcome.next (addWithCarry_of (zeroPageX_fetchOpcode s zp) (by omega))
  | adcAbs addr => exact congrArg Host.Outcome.next (addWithCarry_of (absolute_fetchOpcode s addr) (by omega))
  | adcAbsX addr => exact congrArg Host.Outcome.next (addWithCarry_of (absoluteX_fetchOpcode s addr) (by omega))
  | adcAbsY addr => exact congrArg Host.Outcome.next (addWithCarry_of (absoluteY_fetchOpcode s addr) (by omega))
  | adcIndX zp => exact congrArg Host.Outcome.next (addWithCarry_of (indirectX_fetchOpcode s zp) (by omega))
  | adcIndY zp => exact congrArg Host.Outcome.next (addWithCarry_of (indirectY_fetchOpcode s zp) (by omega))
  | clc => exact congrArg Host.Outcome.next (assignFlag_eq s _ _)
  | sec => exact congrArg Host.Outcome.next (assignFlag_eq s _ _)
  | cli => exact congrArg Host.Outcome.next (assignFlag_eq s _ _)
  | sei => exact congrArg Host.Outcome.next (assignFlag_eq s _ _)
  | clv => exact congrArg Host.Outcome.next (assignFlag_eq s _ _)
  | cld => exact congrArg Host.Outcome.next (assignFlag_eq s _ _)
  | sed => exact congrArg Host.Outcome.next (assignFlag_eq s _ _)
  | bpl off => exact congrArg Host.Outcome.next (branchIf_eq s _ _ off)
  | bmi off => exact congrArg Host.Outcome.next (branchIf_eq s _ _ off)
  | bvc off => exact congrArg Host.Outcome.next (branchIf_eq s _ _ off)
  | bvs off => exact congrArg Host.Outcome.next (branchIf_eq s _ _ off)
  | bcc off => exact congrArg Host.Outcome.next (branchIf_eq s _ _ off)
  | bcs off => exact congrArg Host.Outcome.next (branchIf_eq s _ _ off)
  | bne off => exact congrArg Host.Outcome.next (branchIf_eq s _ _ off)
  | beq off => exact congrArg Host.Outcome.next (branchIf_eq s _ _ off)
  | jmpAbs addr => exact congrArg Host.Outcome.next (jumpTo_of (absolute_fetchOpcode s addr))
  | jmpInd ptr => exact congrArg Host.Outcome.next (jumpTo_of (indirect_fetchOpcode s ptr))
  | jsr addr => exact congrArg Host.Outcome.next (callSubroutine_eq s addr)
  | rts => exact congrArg Host.Outcome.next (returnFromSubroutine_eq s)
  | nop => exact congrArg Host.Outcome.next (nop_eq s)

/-- Every instruction ends in a next state: none faults and none refuses (R11, R261). -/
theorem exec_next (i : Instr) : ∃ t, exec i s = .next t := ⟨_, exec_eq_effect s i⟩

end Sys2Proof.Machine
end

