-- ==== Sys2Proof/Laws/Flags.lean ====
section
/-! SUPPORT. What writing a flag does to each bit of P, and SetZN in bits (10_state.md R36, R38). -/

namespace Sys2Proof.Machine

theorem Flag.bit_lt (f : Flag) : f.bit < 8 := by cases f <;> decide

theorem Flag.bit_injective {f g : Flag} (h : f.bit = g.bit) : f = g := by
  cases f <;> cases g <;> first | rfl | exact absurd h (by decide)

theorem Flag.getLsbD_mask (f : Flag) (k : Nat) : f.mask.getLsbD k = decide (k = f.bit) := by
  have hf := f.bit_lt
  simp only [Flag.mask, BitVec.getLsbD_shiftLeft, BitVec.getLsbD_one]
  by_cases h : k = f.bit
  · subst h; simp [hf]
  · rcases Nat.lt_or_gt_of_ne h with h' | h'
    · simp [h, h']
    · have : k - f.bit ≠ 0 := by omega
      simp [h, this]

/-- Writing a flag changes its bit and no other (R41). -/
theorem getLsbD_setFlag (p : Byte) (f : Flag) (v : Bool) (k : Nat) :
    (setFlag p f v).getLsbD k = if k = f.bit then v else p.getLsbD k := by
  have hf := f.bit_lt
  unfold setFlag
  by_cases h : k = f.bit
  · cases v <;> simp [BitVec.getLsbD_and, BitVec.getLsbD_or, BitVec.getLsbD_not, Flag.getLsbD_mask, h]
  · by_cases hk : k < 8
    · cases v <;> simp only [BitVec.getLsbD_and, BitVec.getLsbD_or, BitVec.getLsbD_not, Flag.getLsbD_mask, h, hk,
        if_true, if_false, decide_true, decide_false, Bool.not_false, Bool.and_true, Bool.or_false,
        Bool.false_eq_true]
    · cases v <;> simp [BitVec.getLsbD_of_ge _ k (Nat.le_of_not_lt hk), h]

@[simp] theorem getFlag_setFlag_same (p : Byte) (f : Flag) (v : Bool) : getFlag (setFlag p f v) f = v := by
  simp [getFlag, getLsbD_setFlag]

theorem getFlag_setFlag_other (p : Byte) {f g : Flag} (v : Bool) (h : g ≠ f) :
    getFlag (setFlag p f v) g = getFlag p g := by
  have : g.bit ≠ f.bit := fun e => h (Flag.bit_injective e)
  simp [getFlag, getLsbD_setFlag, this]

/-- SetZN bit by bit: bit 1 says zero, bit 7 is the value's bit 7, the rest stay (R38). -/
theorem getLsbD_setZN (v : Byte) (s : State) (k : Nat) :
    (setZN v s).P.getLsbD k =
      if k = 7 then v.getLsbD 7 else if k = 1 then decide (v = 0x00#8) else s.P.getLsbD k := by
  show (setFlag (setFlag s.P .Z (v == 0x00#8)) .N (v.getLsbD 7)).getLsbD k = _
  rw [getLsbD_setFlag, getLsbD_setFlag]
  rfl

/-- Two status bytes with the same eight bits are equal. -/
theorem status_ext {p q : Byte} (h : ∀ k, k < 8 → p.getLsbD k = q.getLsbD k) : p = q :=
  BitVec.eq_of_getLsbD_eq (fun k hk => h k hk)

end Sys2Proof.Machine
end

