-- ==== Sys2Proof/Laws/PerInstr.lean ====
section
/-! SUPPORT. Per-instruction facts about syntax: family Encoded, one lemma per constructor of Instr. -/

namespace Sys2Proof.Laws.Encoded

/-- The encoding of `i` is an opcode of the table whose row rebuilds `i` from the operand, and has the length of its mode's
format (30_encoding.md R91, R97). -/
def Statement (i : Instr) : Prop :=
  (encode i).length = i.mode.length ∧
    ((∃ op, encode i = enc1 op ∧ decodeOpcode op = some (.implied i)) ∨
      (∃ op b f, encode i = enc2 op b ∧ decodeOpcode op = some (.byte f) ∧ f b = i) ∨
      (∃ op w f, encode i = enc3 op w ∧ decodeOpcode op = some (.word f) ∧ f w = i))

theorem ldaImm (imm : Byte) : Statement (.ldaImm imm) := ⟨rfl, .inr (.inl ⟨_, imm, _, rfl, rfl, rfl⟩)⟩
theorem ldaZp (zp : Byte) : Statement (.ldaZp zp) := ⟨rfl, .inr (.inl ⟨_, zp, _, rfl, rfl, rfl⟩)⟩
theorem ldaZpX (zp : Byte) : Statement (.ldaZpX zp) := ⟨rfl, .inr (.inl ⟨_, zp, _, rfl, rfl, rfl⟩)⟩
theorem ldaAbs (addr : Word) : Statement (.ldaAbs addr) := ⟨rfl, .inr (.inr ⟨_, addr, _, rfl, rfl, rfl⟩)⟩
theorem ldaAbsX (addr : Word) : Statement (.ldaAbsX addr) := ⟨rfl, .inr (.inr ⟨_, addr, _, rfl, rfl, rfl⟩)⟩
theorem ldaAbsY (addr : Word) : Statement (.ldaAbsY addr) := ⟨rfl, .inr (.inr ⟨_, addr, _, rfl, rfl, rfl⟩)⟩
theorem ldaIndX (zp : Byte) : Statement (.ldaIndX zp) := ⟨rfl, .inr (.inl ⟨_, zp, _, rfl, rfl, rfl⟩)⟩
theorem ldaIndY (zp : Byte) : Statement (.ldaIndY zp) := ⟨rfl, .inr (.inl ⟨_, zp, _, rfl, rfl, rfl⟩)⟩
theorem ldxImm (imm : Byte) : Statement (.ldxImm imm) := ⟨rfl, .inr (.inl ⟨_, imm, _, rfl, rfl, rfl⟩)⟩
theorem ldxZp (zp : Byte) : Statement (.ldxZp zp) := ⟨rfl, .inr (.inl ⟨_, zp, _, rfl, rfl, rfl⟩)⟩
theorem ldxZpY (zp : Byte) : Statement (.ldxZpY zp) := ⟨rfl, .inr (.inl ⟨_, zp, _, rfl, rfl, rfl⟩)⟩
theorem ldxAbs (addr : Word) : Statement (.ldxAbs addr) := ⟨rfl, .inr (.inr ⟨_, addr, _, rfl, rfl, rfl⟩)⟩
theorem ldxAbsY (addr : Word) : Statement (.ldxAbsY addr) := ⟨rfl, .inr (.inr ⟨_, addr, _, rfl, rfl, rfl⟩)⟩
theorem ldyImm (imm : Byte) : Statement (.ldyImm imm) := ⟨rfl, .inr (.inl ⟨_, imm, _, rfl, rfl, rfl⟩)⟩
theorem ldyZp (zp : Byte) : Statement (.ldyZp zp) := ⟨rfl, .inr (.inl ⟨_, zp, _, rfl, rfl, rfl⟩)⟩
theorem ldyZpX (zp : Byte) : Statement (.ldyZpX zp) := ⟨rfl, .inr (.inl ⟨_, zp, _, rfl, rfl, rfl⟩)⟩
theorem ldyAbs (addr : Word) : Statement (.ldyAbs addr) := ⟨rfl, .inr (.inr ⟨_, addr, _, rfl, rfl, rfl⟩)⟩
theorem ldyAbsX (addr : Word) : Statement (.ldyAbsX addr) := ⟨rfl, .inr (.inr ⟨_, addr, _, rfl, rfl, rfl⟩)⟩
theorem staZp (zp : Byte) : Statement (.staZp zp) := ⟨rfl, .inr (.inl ⟨_, zp, _, rfl, rfl, rfl⟩)⟩
theorem staZpX (zp : Byte) : Statement (.staZpX zp) := ⟨rfl, .inr (.inl ⟨_, zp, _, rfl, rfl, rfl⟩)⟩
theorem staAbs (addr : Word) : Statement (.staAbs addr) := ⟨rfl, .inr (.inr ⟨_, addr, _, rfl, rfl, rfl⟩)⟩
theorem staAbsX (addr : Word) : Statement (.staAbsX addr) := ⟨rfl, .inr (.inr ⟨_, addr, _, rfl, rfl, rfl⟩)⟩
theorem staAbsY (addr : Word) : Statement (.staAbsY addr) := ⟨rfl, .inr (.inr ⟨_, addr, _, rfl, rfl, rfl⟩)⟩
theorem staIndX (zp : Byte) : Statement (.staIndX zp) := ⟨rfl, .inr (.inl ⟨_, zp, _, rfl, rfl, rfl⟩)⟩
theorem staIndY (zp : Byte) : Statement (.staIndY zp) := ⟨rfl, .inr (.inl ⟨_, zp, _, rfl, rfl, rfl⟩)⟩
theorem stxZp (zp : Byte) : Statement (.stxZp zp) := ⟨rfl, .inr (.inl ⟨_, zp, _, rfl, rfl, rfl⟩)⟩
theorem stxZpY (zp : Byte) : Statement (.stxZpY zp) := ⟨rfl, .inr (.inl ⟨_, zp, _, rfl, rfl, rfl⟩)⟩
theorem stxAbs (addr : Word) : Statement (.stxAbs addr) := ⟨rfl, .inr (.inr ⟨_, addr, _, rfl, rfl, rfl⟩)⟩
theorem styZp (zp : Byte) : Statement (.styZp zp) := ⟨rfl, .inr (.inl ⟨_, zp, _, rfl, rfl, rfl⟩)⟩
theorem styZpX (zp : Byte) : Statement (.styZpX zp) := ⟨rfl, .inr (.inl ⟨_, zp, _, rfl, rfl, rfl⟩)⟩
theorem styAbs (addr : Word) : Statement (.styAbs addr) := ⟨rfl, .inr (.inr ⟨_, addr, _, rfl, rfl, rfl⟩)⟩
theorem andImm (imm : Byte) : Statement (.andImm imm) := ⟨rfl, .inr (.inl ⟨_, imm, _, rfl, rfl, rfl⟩)⟩
theorem andZp (zp : Byte) : Statement (.andZp zp) := ⟨rfl, .inr (.inl ⟨_, zp, _, rfl, rfl, rfl⟩)⟩
theorem andZpX (zp : Byte) : Statement (.andZpX zp) := ⟨rfl, .inr (.inl ⟨_, zp, _, rfl, rfl, rfl⟩)⟩
theorem andAbs (addr : Word) : Statement (.andAbs addr) := ⟨rfl, .inr (.inr ⟨_, addr, _, rfl, rfl, rfl⟩)⟩
theorem andAbsX (addr : Word) : Statement (.andAbsX addr) := ⟨rfl, .inr (.inr ⟨_, addr, _, rfl, rfl, rfl⟩)⟩
theorem andAbsY (addr : Word) : Statement (.andAbsY addr) := ⟨rfl, .inr (.inr ⟨_, addr, _, rfl, rfl, rfl⟩)⟩
theorem andIndX (zp : Byte) : Statement (.andIndX zp) := ⟨rfl, .inr (.inl ⟨_, zp, _, rfl, rfl, rfl⟩)⟩
theorem andIndY (zp : Byte) : Statement (.andIndY zp) := ⟨rfl, .inr (.inl ⟨_, zp, _, rfl, rfl, rfl⟩)⟩
theorem oraImm (imm : Byte) : Statement (.oraImm imm) := ⟨rfl, .inr (.inl ⟨_, imm, _, rfl, rfl, rfl⟩)⟩
theorem oraZp (zp : Byte) : Statement (.oraZp zp) := ⟨rfl, .inr (.inl ⟨_, zp, _, rfl, rfl, rfl⟩)⟩
theorem oraZpX (zp : Byte) : Statement (.oraZpX zp) := ⟨rfl, .inr (.inl ⟨_, zp, _, rfl, rfl, rfl⟩)⟩
theorem oraAbs (addr : Word) : Statement (.oraAbs addr) := ⟨rfl, .inr (.inr ⟨_, addr, _, rfl, rfl, rfl⟩)⟩
theorem oraAbsX (addr : Word) : Statement (.oraAbsX addr) := ⟨rfl, .inr (.inr ⟨_, addr, _, rfl, rfl, rfl⟩)⟩
theorem oraAbsY (addr : Word) : Statement (.oraAbsY addr) := ⟨rfl, .inr (.inr ⟨_, addr, _, rfl, rfl, rfl⟩)⟩
theorem oraIndX (zp : Byte) : Statement (.oraIndX zp) := ⟨rfl, .inr (.inl ⟨_, zp, _, rfl, rfl, rfl⟩)⟩
theorem oraIndY (zp : Byte) : Statement (.oraIndY zp) := ⟨rfl, .inr (.inl ⟨_, zp, _, rfl, rfl, rfl⟩)⟩
theorem eorImm (imm : Byte) : Statement (.eorImm imm) := ⟨rfl, .inr (.inl ⟨_, imm, _, rfl, rfl, rfl⟩)⟩
theorem eorZp (zp : Byte) : Statement (.eorZp zp) := ⟨rfl, .inr (.inl ⟨_, zp, _, rfl, rfl, rfl⟩)⟩
theorem eorZpX (zp : Byte) : Statement (.eorZpX zp) := ⟨rfl, .inr (.inl ⟨_, zp, _, rfl, rfl, rfl⟩)⟩
theorem eorAbs (addr : Word) : Statement (.eorAbs addr) := ⟨rfl, .inr (.inr ⟨_, addr, _, rfl, rfl, rfl⟩)⟩
theorem eorAbsX (addr : Word) : Statement (.eorAbsX addr) := ⟨rfl, .inr (.inr ⟨_, addr, _, rfl, rfl, rfl⟩)⟩
theorem eorAbsY (addr : Word) : Statement (.eorAbsY addr) := ⟨rfl, .inr (.inr ⟨_, addr, _, rfl, rfl, rfl⟩)⟩
theorem eorIndX (zp : Byte) : Statement (.eorIndX zp) := ⟨rfl, .inr (.inl ⟨_, zp, _, rfl, rfl, rfl⟩)⟩
theorem eorIndY (zp : Byte) : Statement (.eorIndY zp) := ⟨rfl, .inr (.inl ⟨_, zp, _, rfl, rfl, rfl⟩)⟩
theorem bitZp (zp : Byte) : Statement (.bitZp zp) := ⟨rfl, .inr (.inl ⟨_, zp, _, rfl, rfl, rfl⟩)⟩
theorem bitAbs (addr : Word) : Statement (.bitAbs addr) := ⟨rfl, .inr (.inr ⟨_, addr, _, rfl, rfl, rfl⟩)⟩
theorem tax : Statement .tax := ⟨rfl, .inl ⟨_, rfl, rfl⟩⟩
theorem tay : Statement .tay := ⟨rfl, .inl ⟨_, rfl, rfl⟩⟩
theorem txa : Statement .txa := ⟨rfl, .inl ⟨_, rfl, rfl⟩⟩
theorem tya : Statement .tya := ⟨rfl, .inl ⟨_, rfl, rfl⟩⟩
theorem tsx : Statement .tsx := ⟨rfl, .inl ⟨_, rfl, rfl⟩⟩
theorem txs : Statement .txs := ⟨rfl, .inl ⟨_, rfl, rfl⟩⟩
theorem pha : Statement .pha := ⟨rfl, .inl ⟨_, rfl, rfl⟩⟩
theorem php : Statement .php := ⟨rfl, .inl ⟨_, rfl, rfl⟩⟩
theorem pla : Statement .pla := ⟨rfl, .inl ⟨_, rfl, rfl⟩⟩
theorem plp : Statement .plp := ⟨rfl, .inl ⟨_, rfl, rfl⟩⟩
theorem incZp (zp : Byte) : Statement (.incZp zp) := ⟨rfl, .inr (.inl ⟨_, zp, _, rfl, rfl, rfl⟩)⟩
theorem incZpX (zp : Byte) : Statement (.incZpX zp) := ⟨rfl, .inr (.inl ⟨_, zp, _, rfl, rfl, rfl⟩)⟩
theorem incAbs (addr : Word) : Statement (.incAbs addr) := ⟨rfl, .inr (.inr ⟨_, addr, _, rfl, rfl, rfl⟩)⟩
theorem incAbsX (addr : Word) : Statement (.incAbsX addr) := ⟨rfl, .inr (.inr ⟨_, addr, _, rfl, rfl, rfl⟩)⟩
theorem decZp (zp : Byte) : Statement (.decZp zp) := ⟨rfl, .inr (.inl ⟨_, zp, _, rfl, rfl, rfl⟩)⟩
theorem decZpX (zp : Byte) : Statement (.decZpX zp) := ⟨rfl, .inr (.inl ⟨_, zp, _, rfl, rfl, rfl⟩)⟩
theorem decAbs (addr : Word) : Statement (.decAbs addr) := ⟨rfl, .inr (.inr ⟨_, addr, _, rfl, rfl, rfl⟩)⟩
theorem decAbsX (addr : Word) : Statement (.decAbsX addr) := ⟨rfl, .inr (.inr ⟨_, addr, _, rfl, rfl, rfl⟩)⟩
theorem inx : Statement .inx := ⟨rfl, .inl ⟨_, rfl, rfl⟩⟩
theorem iny : Statement .iny := ⟨rfl, .inl ⟨_, rfl, rfl⟩⟩
theorem dex : Statement .dex := ⟨rfl, .inl ⟨_, rfl, rfl⟩⟩
theorem dey : Statement .dey := ⟨rfl, .inl ⟨_, rfl, rfl⟩⟩
theorem adcImm (imm : Byte) : Statement (.adcImm imm) := ⟨rfl, .inr (.inl ⟨_, imm, _, rfl, rfl, rfl⟩)⟩
theorem adcZp (zp : Byte) : Statement (.adcZp zp) := ⟨rfl, .inr (.inl ⟨_, zp, _, rfl, rfl, rfl⟩)⟩
theorem adcZpX (zp : Byte) : Statement (.adcZpX zp) := ⟨rfl, .inr (.inl ⟨_, zp, _, rfl, rfl, rfl⟩)⟩
theorem adcAbs (addr : Word) : Statement (.adcAbs addr) := ⟨rfl, .inr (.inr ⟨_, addr, _, rfl, rfl, rfl⟩)⟩
theorem adcAbsX (addr : Word) : Statement (.adcAbsX addr) := ⟨rfl, .inr (.inr ⟨_, addr, _, rfl, rfl, rfl⟩)⟩
theorem adcAbsY (addr : Word) : Statement (.adcAbsY addr) := ⟨rfl, .inr (.inr ⟨_, addr, _, rfl, rfl, rfl⟩)⟩
theorem adcIndX (zp : Byte) : Statement (.adcIndX zp) := ⟨rfl, .inr (.inl ⟨_, zp, _, rfl, rfl, rfl⟩)⟩
theorem adcIndY (zp : Byte) : Statement (.adcIndY zp) := ⟨rfl, .inr (.inl ⟨_, zp, _, rfl, rfl, rfl⟩)⟩
theorem clc : Statement .clc := ⟨rfl, .inl ⟨_, rfl, rfl⟩⟩
theorem sec : Statement .sec := ⟨rfl, .inl ⟨_, rfl, rfl⟩⟩
theorem cli : Statement .cli := ⟨rfl, .inl ⟨_, rfl, rfl⟩⟩
theorem sei : Statement .sei := ⟨rfl, .inl ⟨_, rfl, rfl⟩⟩
theorem clv : Statement .clv := ⟨rfl, .inl ⟨_, rfl, rfl⟩⟩
theorem cld : Statement .cld := ⟨rfl, .inl ⟨_, rfl, rfl⟩⟩
theorem sed : Statement .sed := ⟨rfl, .inl ⟨_, rfl, rfl⟩⟩
theorem bpl (off : Byte) : Statement (.bpl off) := ⟨rfl, .inr (.inl ⟨_, off, _, rfl, rfl, rfl⟩)⟩
theorem bmi (off : Byte) : Statement (.bmi off) := ⟨rfl, .inr (.inl ⟨_, off, _, rfl, rfl, rfl⟩)⟩
theorem bvc (off : Byte) : Statement (.bvc off) := ⟨rfl, .inr (.inl ⟨_, off, _, rfl, rfl, rfl⟩)⟩
theorem bvs (off : Byte) : Statement (.bvs off) := ⟨rfl, .inr (.inl ⟨_, off, _, rfl, rfl, rfl⟩)⟩
theorem bcc (off : Byte) : Statement (.bcc off) := ⟨rfl, .inr (.inl ⟨_, off, _, rfl, rfl, rfl⟩)⟩
theorem bcs (off : Byte) : Statement (.bcs off) := ⟨rfl, .inr (.inl ⟨_, off, _, rfl, rfl, rfl⟩)⟩
theorem bne (off : Byte) : Statement (.bne off) := ⟨rfl, .inr (.inl ⟨_, off, _, rfl, rfl, rfl⟩)⟩
theorem beq (off : Byte) : Statement (.beq off) := ⟨rfl, .inr (.inl ⟨_, off, _, rfl, rfl, rfl⟩)⟩
theorem jmpAbs (addr : Word) : Statement (.jmpAbs addr) := ⟨rfl, .inr (.inr ⟨_, addr, _, rfl, rfl, rfl⟩)⟩
theorem jmpInd (ptr : Word) : Statement (.jmpInd ptr) := ⟨rfl, .inr (.inr ⟨_, ptr, _, rfl, rfl, rfl⟩)⟩
theorem jsr (addr : Word) : Statement (.jsr addr) := ⟨rfl, .inr (.inr ⟨_, addr, _, rfl, rfl, rfl⟩)⟩
theorem rts : Statement .rts := ⟨rfl, .inl ⟨_, rfl, rfl⟩⟩
theorem nop : Statement .nop := ⟨rfl, .inl ⟨_, rfl, rfl⟩⟩

/-- The family holds of every instruction. -/
theorem all (i : Instr) : Statement i := by
  cases i with
  | ldaImm imm => exact ldaImm imm
  | ldaZp zp => exact ldaZp zp
  | ldaZpX zp => exact ldaZpX zp
  | ldaAbs addr => exact ldaAbs addr
  | ldaAbsX addr => exact ldaAbsX addr
  | ldaAbsY addr => exact ldaAbsY addr
  | ldaIndX zp => exact ldaIndX zp
  | ldaIndY zp => exact ldaIndY zp
  | ldxImm imm => exact ldxImm imm
  | ldxZp zp => exact ldxZp zp
  | ldxZpY zp => exact ldxZpY zp
  | ldxAbs addr => exact ldxAbs addr
  | ldxAbsY addr => exact ldxAbsY addr
  | ldyImm imm => exact ldyImm imm
  | ldyZp zp => exact ldyZp zp
  | ldyZpX zp => exact ldyZpX zp
  | ldyAbs addr => exact ldyAbs addr
  | ldyAbsX addr => exact ldyAbsX addr
  | staZp zp => exact staZp zp
  | staZpX zp => exact staZpX zp
  | staAbs addr => exact staAbs addr
  | staAbsX addr => exact staAbsX addr
  | staAbsY addr => exact staAbsY addr
  | staIndX zp => exact staIndX zp
  | staIndY zp => exact staIndY zp
  | stxZp zp => exact stxZp zp
  | stxZpY zp => exact stxZpY zp
  | stxAbs addr => exact stxAbs addr
  | styZp zp => exact styZp zp
  | styZpX zp => exact styZpX zp
  | styAbs addr => exact styAbs addr
  | andImm imm => exact andImm imm
  | andZp zp => exact andZp zp
  | andZpX zp => exact andZpX zp
  | andAbs addr => exact andAbs addr
  | andAbsX addr => exact andAbsX addr
  | andAbsY addr => exact andAbsY addr
  | andIndX zp => exact andIndX zp
  | andIndY zp => exact andIndY zp
  | oraImm imm => exact oraImm imm
  | oraZp zp => exact oraZp zp
  | oraZpX zp => exact oraZpX zp
  | oraAbs addr => exact oraAbs addr
  | oraAbsX addr => exact oraAbsX addr
  | oraAbsY addr => exact oraAbsY addr
  | oraIndX zp => exact oraIndX zp
  | oraIndY zp => exact oraIndY zp
  | eorImm imm => exact eorImm imm
  | eorZp zp => exact eorZp zp
  | eorZpX zp => exact eorZpX zp
  | eorAbs addr => exact eorAbs addr
  | eorAbsX addr => exact eorAbsX addr
  | eorAbsY addr => exact eorAbsY addr
  | eorIndX zp => exact eorIndX zp
  | eorIndY zp => exact eorIndY zp
  | bitZp zp => exact bitZp zp
  | bitAbs addr => exact bitAbs addr
  | tax => exact tax
  | tay => exact tay
  | txa => exact txa
  | tya => exact tya
  | tsx => exact tsx
  | txs => exact txs
  | pha => exact pha
  | php => exact php
  | pla => exact pla
  | plp => exact plp
  | incZp zp => exact incZp zp
  | incZpX zp => exact incZpX zp
  | incAbs addr => exact incAbs addr
  | incAbsX addr => exact incAbsX addr
  | decZp zp => exact decZp zp
  | decZpX zp => exact decZpX zp
  | decAbs addr => exact decAbs addr
  | decAbsX addr => exact decAbsX addr
  | inx => exact inx
  | iny => exact iny
  | dex => exact dex
  | dey => exact dey
  | adcImm imm => exact adcImm imm
  | adcZp zp => exact adcZp zp
  | adcZpX zp => exact adcZpX zp
  | adcAbs addr => exact adcAbs addr
  | adcAbsX addr => exact adcAbsX addr
  | adcAbsY addr => exact adcAbsY addr
  | adcIndX zp => exact adcIndX zp
  | adcIndY zp => exact adcIndY zp
  | clc => exact clc
  | sec => exact sec
  | cli => exact cli
  | sei => exact sei
  | clv => exact clv
  | cld => exact cld
  | sed => exact sed
  | bpl off => exact bpl off
  | bmi off => exact bmi off
  | bvc off => exact bvc off
  | bvs off => exact bvs off
  | bcc off => exact bcc off
  | bcs off => exact bcs off
  | bne off => exact bne off
  | beq off => exact beq off
  | jmpAbs addr => exact jmpAbs addr
  | jmpInd ptr => exact jmpInd ptr
  | jsr addr => exact jsr addr
  | rts => exact rts
  | nop => exact nop

end Sys2Proof.Laws.Encoded
end

