-- ==== Sys2Proof/Laws/Status.lean ====
section
/-! SUPPORT. How an instruction can change P, said once: the six ways, and which mnemonics take each
(10_state.md R37). -/

namespace Sys2Proof.Machine

/-- The mnemonics whose only effect on P is the assignment flags (R37). -/
def assigningMnemonics : List Mnemonic :=
  [.LDA, .LDX, .LDY, .AND, .ORA, .EOR, .TAX, .TAY, .TXA, .TYA, .TSX, .PLA, .INC, .DEC, .INX, .INY, .DEX, .DEY]

/-- The ways an instruction can leave P. -/
inductive StatusChange (p : Byte) : Mnemonic → Byte → Prop where
  | same (m : Mnemonic) : StatusChange p m p
  | assign {m : Mnemonic} (h : m ∈ assigningMnemonics) (v : Byte) : StatusChange p m (assignZN p v)
  | add (c o : Bool) (r : Byte) : StatusChange p .ADC (assignZN (setFlag (setFlag p .C c) .V o) r)
  | test (z n o : Bool) : StatusChange p .BIT (setFlag (setFlag (setFlag p .Z z) .N n) .V o)
  | clc : StatusChange p .CLC (setFlag p .C false)
  | sec : StatusChange p .SEC (setFlag p .C true)
  | cli : StatusChange p .CLI (setFlag p .I false)
  | sei : StatusChange p .SEI (setFlag p .I true)
  | clv : StatusChange p .CLV (setFlag p .V false)
  | cld : StatusChange p .CLD (setFlag p .D false)
  | sed : StatusChange p .SED (setFlag p .D true)
  | pull (v : Byte) : StatusChange p .PLP (pulledP p v)

/-- Every instruction leaves P in one of these ways. -/
theorem effect_status (i : Instr) (s : State) : StatusChange s.P i.mnemonic (effect i s).P := by
  cases i with
  | ldaImm _ => exact .assign (by show Mnemonic.LDA ∈ _; decide) _
  | ldaZp _ => exact .assign (by show Mnemonic.LDA ∈ _; decide) _
  | ldaZpX _ => exact .assign (by show Mnemonic.LDA ∈ _; decide) _
  | ldaAbs _ => exact .assign (by show Mnemonic.LDA ∈ _; decide) _
  | ldaAbsX _ => exact .assign (by show Mnemonic.LDA ∈ _; decide) _
  | ldaAbsY _ => exact .assign (by show Mnemonic.LDA ∈ _; decide) _
  | ldaIndX _ => exact .assign (by show Mnemonic.LDA ∈ _; decide) _
  | ldaIndY _ => exact .assign (by show Mnemonic.LDA ∈ _; decide) _
  | ldxImm _ => exact .assign (by show Mnemonic.LDX ∈ _; decide) _
  | ldxZp _ => exact .assign (by show Mnemonic.LDX ∈ _; decide) _
  | ldxZpY _ => exact .assign (by show Mnemonic.LDX ∈ _; decide) _
  | ldxAbs _ => exact .assign (by show Mnemonic.LDX ∈ _; decide) _
  | ldxAbsY _ => exact .assign (by show Mnemonic.LDX ∈ _; decide) _
  | ldyImm _ => exact .assign (by show Mnemonic.LDY ∈ _; decide) _
  | ldyZp _ => exact .assign (by show Mnemonic.LDY ∈ _; decide) _
  | ldyZpX _ => exact .assign (by show Mnemonic.LDY ∈ _; decide) _
  | ldyAbs _ => exact .assign (by show Mnemonic.LDY ∈ _; decide) _
  | ldyAbsX _ => exact .assign (by show Mnemonic.LDY ∈ _; decide) _
  | staZp _ => exact .same _
  | staZpX _ => exact .same _
  | staAbs _ => exact .same _
  | staAbsX _ => exact .same _
  | staAbsY _ => exact .same _
  | staIndX _ => exact .same _
  | staIndY _ => exact .same _
  | stxZp _ => exact .same _
  | stxZpY _ => exact .same _
  | stxAbs _ => exact .same _
  | styZp _ => exact .same _
  | styZpX _ => exact .same _
  | styAbs _ => exact .same _
  | andImm _ => exact .assign (by show Mnemonic.AND ∈ _; decide) _
  | andZp _ => exact .assign (by show Mnemonic.AND ∈ _; decide) _
  | andZpX _ => exact .assign (by show Mnemonic.AND ∈ _; decide) _
  | andAbs _ => exact .assign (by show Mnemonic.AND ∈ _; decide) _
  | andAbsX _ => exact .assign (by show Mnemonic.AND ∈ _; decide) _
  | andAbsY _ => exact .assign (by show Mnemonic.AND ∈ _; decide) _
  | andIndX _ => exact .assign (by show Mnemonic.AND ∈ _; decide) _
  | andIndY _ => exact .assign (by show Mnemonic.AND ∈ _; decide) _
  | oraImm _ => exact .assign (by show Mnemonic.ORA ∈ _; decide) _
  | oraZp _ => exact .assign (by show Mnemonic.ORA ∈ _; decide) _
  | oraZpX _ => exact .assign (by show Mnemonic.ORA ∈ _; decide) _
  | oraAbs _ => exact .assign (by show Mnemonic.ORA ∈ _; decide) _
  | oraAbsX _ => exact .assign (by show Mnemonic.ORA ∈ _; decide) _
  | oraAbsY _ => exact .assign (by show Mnemonic.ORA ∈ _; decide) _
  | oraIndX _ => exact .assign (by show Mnemonic.ORA ∈ _; decide) _
  | oraIndY _ => exact .assign (by show Mnemonic.ORA ∈ _; decide) _
  | eorImm _ => exact .assign (by show Mnemonic.EOR ∈ _; decide) _
  | eorZp _ => exact .assign (by show Mnemonic.EOR ∈ _; decide) _
  | eorZpX _ => exact .assign (by show Mnemonic.EOR ∈ _; decide) _
  | eorAbs _ => exact .assign (by show Mnemonic.EOR ∈ _; decide) _
  | eorAbsX _ => exact .assign (by show Mnemonic.EOR ∈ _; decide) _
  | eorAbsY _ => exact .assign (by show Mnemonic.EOR ∈ _; decide) _
  | eorIndX _ => exact .assign (by show Mnemonic.EOR ∈ _; decide) _
  | eorIndY _ => exact .assign (by show Mnemonic.EOR ∈ _; decide) _
  | bitZp _ => exact .test _ _ _
  | bitAbs _ => exact .test _ _ _
  | tax => exact .assign (by show Mnemonic.TAX ∈ _; decide) _
  | tay => exact .assign (by show Mnemonic.TAY ∈ _; decide) _
  | txa => exact .assign (by show Mnemonic.TXA ∈ _; decide) _
  | tya => exact .assign (by show Mnemonic.TYA ∈ _; decide) _
  | tsx => exact .assign (by show Mnemonic.TSX ∈ _; decide) _
  | txs => exact .same _
  | pha => exact .same _
  | php => exact .same _
  | pla => exact .assign (by show Mnemonic.PLA ∈ _; decide) _
  | plp => exact .pull _
  | incZp _ => exact .assign (by show Mnemonic.INC ∈ _; decide) _
  | incZpX _ => exact .assign (by show Mnemonic.INC ∈ _; decide) _
  | incAbs _ => exact .assign (by show Mnemonic.INC ∈ _; decide) _
  | incAbsX _ => exact .assign (by show Mnemonic.INC ∈ _; decide) _
  | decZp _ => exact .assign (by show Mnemonic.DEC ∈ _; decide) _
  | decZpX _ => exact .assign (by show Mnemonic.DEC ∈ _; decide) _
  | decAbs _ => exact .assign (by show Mnemonic.DEC ∈ _; decide) _
  | decAbsX _ => exact .assign (by show Mnemonic.DEC ∈ _; decide) _
  | inx => exact .assign (by show Mnemonic.INX ∈ _; decide) _
  | iny => exact .assign (by show Mnemonic.INY ∈ _; decide) _
  | dex => exact .assign (by show Mnemonic.DEX ∈ _; decide) _
  | dey => exact .assign (by show Mnemonic.DEY ∈ _; decide) _
  | adcImm _ => exact .add _ _ _
  | adcZp _ => exact .add _ _ _
  | adcZpX _ => exact .add _ _ _
  | adcAbs _ => exact .add _ _ _
  | adcAbsX _ => exact .add _ _ _
  | adcAbsY _ => exact .add _ _ _
  | adcIndX _ => exact .add _ _ _
  | adcIndY _ => exact .add _ _ _
  | clc => exact .clc
  | sec => exact .sec
  | cli => exact .cli
  | sei => exact .sei
  | clv => exact .clv
  | cld => exact .cld
  | sed => exact .sed
  | bpl _ => exact .same _
  | bmi _ => exact .same _
  | bvc _ => exact .same _
  | bvs _ => exact .same _
  | bcc _ => exact .same _
  | bcs _ => exact .same _
  | bne _ => exact .same _
  | beq _ => exact .same _
  | jmpAbs _ => exact .same _
  | jmpInd _ => exact .same _
  | jsr _ => exact .same _
  | rts => exact .same _
  | nop => exact .same _

/-! ### The bits of each change -/

theorem getLsbD_assignZN (p v : Byte) (k : Nat) :
    (assignZN p v).getLsbD k = if k = 7 then v.getLsbD 7 else if k = 1 then decide (v = 0x00#8) else p.getLsbD k := by
  rw [assignZN, getLsbD_setFlag, getLsbD_setFlag]; rfl

theorem getLsbD_pulledP (p v : Byte) (k : Nat) :
    (pulledP p v).getLsbD k = if k = 4 ∨ k = 5 then p.getLsbD k else v.getLsbD k := by
  by_cases hk : k < 8
  · have h1 : ∀ k < 8, (0b00110000#8).getLsbD k = decide (k = 4 ∨ k = 5) := by decide
    have h2 : ∀ k < 8, (0b11001111#8).getLsbD k = !decide (k = 4 ∨ k = 5) := by decide
    simp only [pulledP, BitVec.getLsbD_or, BitVec.getLsbD_and, h1 k hk, h2 k hk]
    by_cases h : k = 4 ∨ k = 5 <;> simp [h]
  · have hg : ∀ q : Byte, q.getLsbD k = false := fun q => BitVec.getLsbD_of_ge _ _ (by omega)
    simp [hg]

end Sys2Proof.Machine
end

