-- ==== Sys2Proof/Laws/Step.lean ====
section
/-! SUPPORT. What a step can do, said once: the decoder on three bytes, and the inversion lemmas of step. -/

namespace Sys2Proof.Machine

/-! ### The decoder -/

theorem decode_implied {op : Byte} {i : Instr} (h : decodeOpcode op = some (.implied i)) (rest : List Byte) :
    decode (op :: rest) = .ok (i, rest) := by
  simp [decode, h]

theorem decode_byte {op : Byte} {f : Byte → Instr} (h : decodeOpcode op = some (.byte f)) (b : Byte)
    (rest : List Byte) : decode (op :: b :: rest) = .ok (f b, rest) := by
  simp [decode, h]

theorem decode_word {op : Byte} {f : Word → Instr} (h : decodeOpcode op = some (.word f)) (lo hi : Byte)
    (rest : List Byte) : decode (op :: lo :: hi :: rest) = .ok (f (wordOfBytes lo hi), rest) := by
  simp [decode, h]

theorem decode_unknown {op : Byte} (h : decodeOpcode op = none) (rest : List Byte) :
    decode (op :: rest) = .error (.unknownOpcode op) := by
  simp [decode, h]

/-- Three bytes decode exactly when the first is an opcode of the table (R93, R96). -/
theorem decode_three (b0 b1 b2 : Byte) :
    (decodeOpcode b0 = none ∧ decode [b0, b1, b2] = .error (.unknownOpcode b0)) ∨
      ((decodeOpcode b0).isSome ∧ ∃ i rest, decode [b0, b1, b2] = .ok (i, rest)) := by
  cases h : decodeOpcode b0 with
  | none => exact .inl ⟨rfl, decode_unknown h _⟩
  | some sh =>
    refine .inr ⟨rfl, ?_⟩
    cases sh with
    | implied i => exact ⟨_, _, decode_implied h _⟩
    | byte f => exact ⟨_, _, decode_byte h _ _⟩
    | word f => exact ⟨_, _, decode_word h _ _ _⟩

/-! ### The step -/

/-- What a step can end in: the decoded instruction's effect, or the one fault, with the byte and address at PC. -/
theorem step_cases (s : State) :
    (∃ i rest t, decode (fetchWindow s) = .ok (i, rest) ∧ exec i s = .next t ∧ step s = .next t) ∨
      (decodeOpcode (s.mem.read s.PC) = none ∧ step s = .fault (.unknownOpcode (s.mem.read s.PC) s.PC)) := by
  rcases decode_three (s.mem.read s.PC) (s.mem.read (s.PC + 1)) (s.mem.read (s.PC + 2)) with ⟨h, hd⟩ | ⟨-, i, rest, hd⟩
  · refine .inr ⟨h, ?_⟩
    unfold step fetchWindow
    rw [hd]; rfl
  · have ht := exec_eq_effect s i
    refine .inl ⟨i, rest, _, hd, ht, ?_⟩
    unfold step fetchWindow
    rw [hd]; exact ht

/-- A step with a next state is an instruction's effect. -/
theorem step_next_inv {s t : State} (h : step s = .next t) : ∃ i, exec i s = .next t := by
  rcases step_cases s with ⟨i, _, u, _, hu, hs⟩ | ⟨_, hs⟩
  · exact ⟨i, by rw [hu, ← hs, h]⟩
  · rw [hs] at h; cases h

/-- A fault names the byte and address at PC, and the byte is no opcode. -/
theorem step_fault_inv {s : State} {f : Fault} (h : step s = .fault f) :
    f = .unknownOpcode (s.mem.read s.PC) s.PC ∧ decodeOpcode (s.mem.read s.PC) = none := by
  rcases step_cases s with ⟨_, _, u, _, _, hs⟩ | ⟨hn, hs⟩
  · rw [hs] at h; cases h
  · rw [hs] at h; cases h; exact ⟨rfl, hn⟩

/-- No step refuses. -/
theorem step_not_refused (s : State) (r : Refusal) : step s ≠ .refused r := by
  rcases step_cases s with ⟨_, _, u, _, _, hs⟩ | ⟨_, hs⟩ <;> rw [hs] <;> simp

/-- Reset is creation (R294). -/
theorem reset_eq_create : State.reset = create := rfl

end Sys2Proof.Machine
end

