-- ==== Sys2Proof/Tests/Slice0.lean ====
section
/-! SUPPORT. Tests: well-formedness, decoding of every opcode, single steps whose expected values are those of
95_test_vectors.md (named by its ids) or of an instruction rule's example, and a witness for each statement with hypotheses. -/

namespace Sys2Proof.Tests

open Sys2Proof.Machine Sys2Proof.Claim

/-! ### Well-formedness: what each check refuses, and its boundary -/

theorem test_wf_tableWord : tableWordWf 12 0 = false ∧ tableWordWf 32 0 = false ∧ tableWordWf 8 256 = false ∧
    tableWordWf 8 255 = true ∧ tableWordWf 24 0xFFFFFF = true := by decide

theorem test_wf_branchTarget : branchTargetWf 0x0200 0x0282 = false ∧ branchTargetWf 0x0200 0x0181 = false ∧
    branchTargetWf 0x0200 0x0281 = true ∧ branchTargetWf 0x0200 0x0182 = true := by decide

theorem test_wf_loadBody : loadBodyFits 0xFFFF [0x01, 0x02] = false ∧ loadBodyFits 0xFFFF [0x01] = true := by decide

/-! ### Decoding: every opcode of R97, its byte from the table's rows and its operand laid out as R91 says -/

theorem test_decode_loadStore1 :
    decode [0xA9, 0x9C] = .ok (.ldaImm 0x9C, []) ∧
    decode [0xA5, 0x9C] = .ok (.ldaZp 0x9C, []) ∧
    decode [0xB5, 0x9C] = .ok (.ldaZpX 0x9C, []) ∧
    decode [0xAD, 0x34, 0x12] = .ok (.ldaAbs 0x1234, []) ∧
    decode [0xBD, 0x34, 0x12] = .ok (.ldaAbsX 0x1234, []) ∧
    decode [0xB9, 0x34, 0x12] = .ok (.ldaAbsY 0x1234, []) ∧
    decode [0xA1, 0x9C] = .ok (.ldaIndX 0x9C, []) ∧
    decode [0xB1, 0x9C] = .ok (.ldaIndY 0x9C, []) ∧
    decode [0xA2, 0x9C] = .ok (.ldxImm 0x9C, []) ∧
    decode [0xA6, 0x9C] = .ok (.ldxZp 0x9C, []) ∧
    decode [0xB6, 0x9C] = .ok (.ldxZpY 0x9C, []) ∧
    decode [0xAE, 0x34, 0x12] = .ok (.ldxAbs 0x1234, []) ∧
    decode [0xBE, 0x34, 0x12] = .ok (.ldxAbsY 0x1234, []) ∧
    decode [0xA0, 0x9C] = .ok (.ldyImm 0x9C, []) ∧
    decode [0xA4, 0x9C] = .ok (.ldyZp 0x9C, []) ∧
    decode [0xB4, 0x9C] = .ok (.ldyZpX 0x9C, []) ∧
    decode [0xAC, 0x34, 0x12] = .ok (.ldyAbs 0x1234, []) ∧
    decode [0xBC, 0x34, 0x12] = .ok (.ldyAbsX 0x1234, []) := by
  refine ⟨rfl, rfl, rfl, rfl, rfl, rfl, rfl, rfl, rfl, rfl, rfl, rfl, rfl, rfl, rfl, rfl, rfl, rfl⟩

theorem test_decode_loadStore2 :
    decode [0x85, 0x9C] = .ok (.staZp 0x9C, []) ∧
    decode [0x95, 0x9C] = .ok (.staZpX 0x9C, []) ∧
    decode [0x8D, 0x34, 0x12] = .ok (.staAbs 0x1234, []) ∧
    decode [0x9D, 0x34, 0x12] = .ok (.staAbsX 0x1234, []) ∧
    decode [0x99, 0x34, 0x12] = .ok (.staAbsY 0x1234, []) ∧
    decode [0x81, 0x9C] = .ok (.staIndX 0x9C, []) ∧
    decode [0x91, 0x9C] = .ok (.staIndY 0x9C, []) ∧
    decode [0x86, 0x9C] = .ok (.stxZp 0x9C, []) ∧
    decode [0x96, 0x9C] = .ok (.stxZpY 0x9C, []) ∧
    decode [0x8E, 0x34, 0x12] = .ok (.stxAbs 0x1234, []) ∧
    decode [0x84, 0x9C] = .ok (.styZp 0x9C, []) ∧
    decode [0x94, 0x9C] = .ok (.styZpX 0x9C, []) ∧
    decode [0x8C, 0x34, 0x12] = .ok (.styAbs 0x1234, []) := by
  refine ⟨rfl, rfl, rfl, rfl, rfl, rfl, rfl, rfl, rfl, rfl, rfl, rfl, rfl⟩

theorem test_decode_logical1 :
    decode [0x29, 0x9C] = .ok (.andImm 0x9C, []) ∧
    decode [0x25, 0x9C] = .ok (.andZp 0x9C, []) ∧
    decode [0x35, 0x9C] = .ok (.andZpX 0x9C, []) ∧
    decode [0x2D, 0x34, 0x12] = .ok (.andAbs 0x1234, []) ∧
    decode [0x3D, 0x34, 0x12] = .ok (.andAbsX 0x1234, []) ∧
    decode [0x39, 0x34, 0x12] = .ok (.andAbsY 0x1234, []) ∧
    decode [0x21, 0x9C] = .ok (.andIndX 0x9C, []) ∧
    decode [0x31, 0x9C] = .ok (.andIndY 0x9C, []) ∧
    decode [0x09, 0x9C] = .ok (.oraImm 0x9C, []) ∧
    decode [0x05, 0x9C] = .ok (.oraZp 0x9C, []) ∧
    decode [0x15, 0x9C] = .ok (.oraZpX 0x9C, []) ∧
    decode [0x0D, 0x34, 0x12] = .ok (.oraAbs 0x1234, []) ∧
    decode [0x1D, 0x34, 0x12] = .ok (.oraAbsX 0x1234, []) ∧
    decode [0x19, 0x34, 0x12] = .ok (.oraAbsY 0x1234, []) ∧
    decode [0x01, 0x9C] = .ok (.oraIndX 0x9C, []) ∧
    decode [0x11, 0x9C] = .ok (.oraIndY 0x9C, []) ∧
    decode [0x49, 0x9C] = .ok (.eorImm 0x9C, []) ∧
    decode [0x45, 0x9C] = .ok (.eorZp 0x9C, []) := by
  refine ⟨rfl, rfl, rfl, rfl, rfl, rfl, rfl, rfl, rfl, rfl, rfl, rfl, rfl, rfl, rfl, rfl, rfl, rfl⟩

theorem test_decode_logical2 :
    decode [0x55, 0x9C] = .ok (.eorZpX 0x9C, []) ∧
    decode [0x4D, 0x34, 0x12] = .ok (.eorAbs 0x1234, []) ∧
    decode [0x5D, 0x34, 0x12] = .ok (.eorAbsX 0x1234, []) ∧
    decode [0x59, 0x34, 0x12] = .ok (.eorAbsY 0x1234, []) ∧
    decode [0x41, 0x9C] = .ok (.eorIndX 0x9C, []) ∧
    decode [0x51, 0x9C] = .ok (.eorIndY 0x9C, []) ∧
    decode [0x24, 0x9C] = .ok (.bitZp 0x9C, []) ∧
    decode [0x2C, 0x34, 0x12] = .ok (.bitAbs 0x1234, []) := by
  refine ⟨rfl, rfl, rfl, rfl, rfl, rfl, rfl, rfl⟩

theorem test_decode_transferStack :
    decode [0xAA] = .ok (.tax, []) ∧
    decode [0xA8] = .ok (.tay, []) ∧
    decode [0x8A] = .ok (.txa, []) ∧
    decode [0x98] = .ok (.tya, []) ∧
    decode [0xBA] = .ok (.tsx, []) ∧
    decode [0x9A] = .ok (.txs, []) ∧
    decode [0x48] = .ok (.pha, []) ∧
    decode [0x08] = .ok (.php, []) ∧
    decode [0x68] = .ok (.pla, []) ∧
    decode [0x28] = .ok (.plp, []) := by
  refine ⟨rfl, rfl, rfl, rfl, rfl, rfl, rfl, rfl, rfl, rfl⟩

theorem test_decode_incDecAdc1 :
    decode [0xE6, 0x9C] = .ok (.incZp 0x9C, []) ∧
    decode [0xF6, 0x9C] = .ok (.incZpX 0x9C, []) ∧
    decode [0xEE, 0x34, 0x12] = .ok (.incAbs 0x1234, []) ∧
    decode [0xFE, 0x34, 0x12] = .ok (.incAbsX 0x1234, []) ∧
    decode [0xC6, 0x9C] = .ok (.decZp 0x9C, []) ∧
    decode [0xD6, 0x9C] = .ok (.decZpX 0x9C, []) ∧
    decode [0xCE, 0x34, 0x12] = .ok (.decAbs 0x1234, []) ∧
    decode [0xDE, 0x34, 0x12] = .ok (.decAbsX 0x1234, []) ∧
    decode [0xE8] = .ok (.inx, []) ∧
    decode [0xC8] = .ok (.iny, []) ∧
    decode [0xCA] = .ok (.dex, []) ∧
    decode [0x88] = .ok (.dey, []) ∧
    decode [0x69, 0x9C] = .ok (.adcImm 0x9C, []) ∧
    decode [0x65, 0x9C] = .ok (.adcZp 0x9C, []) ∧
    decode [0x75, 0x9C] = .ok (.adcZpX 0x9C, []) ∧
    decode [0x6D, 0x34, 0x12] = .ok (.adcAbs 0x1234, []) ∧
    decode [0x7D, 0x34, 0x12] = .ok (.adcAbsX 0x1234, []) ∧
    decode [0x79, 0x34, 0x12] = .ok (.adcAbsY 0x1234, []) := by
  refine ⟨rfl, rfl, rfl, rfl, rfl, rfl, rfl, rfl, rfl, rfl, rfl, rfl, rfl, rfl, rfl, rfl, rfl, rfl⟩

theorem test_decode_incDecAdc2 :
    decode [0x61, 0x9C] = .ok (.adcIndX 0x9C, []) ∧
    decode [0x71, 0x9C] = .ok (.adcIndY 0x9C, []) := by
  refine ⟨rfl, rfl⟩

theorem test_decode_flagOps :
    decode [0x18] = .ok (.clc, []) ∧
    decode [0x38] = .ok (.sec, []) ∧
    decode [0x58] = .ok (.cli, []) ∧
    decode [0x78] = .ok (.sei, []) ∧
    decode [0xB8] = .ok (.clv, []) ∧
    decode [0xD8] = .ok (.cld, []) ∧
    decode [0xF8] = .ok (.sed, []) := by
  refine ⟨rfl, rfl, rfl, rfl, rfl, rfl, rfl⟩

theorem test_decode_controlFlow :
    decode [0x10, 0x9C] = .ok (.bpl 0x9C, []) ∧
    decode [0x30, 0x9C] = .ok (.bmi 0x9C, []) ∧
    decode [0x50, 0x9C] = .ok (.bvc 0x9C, []) ∧
    decode [0x70, 0x9C] = .ok (.bvs 0x9C, []) ∧
    decode [0x90, 0x9C] = .ok (.bcc 0x9C, []) ∧
    decode [0xB0, 0x9C] = .ok (.bcs 0x9C, []) ∧
    decode [0xD0, 0x9C] = .ok (.bne 0x9C, []) ∧
    decode [0xF0, 0x9C] = .ok (.beq 0x9C, []) ∧
    decode [0x4C, 0x34, 0x12] = .ok (.jmpAbs 0x1234, []) ∧
    decode [0x6C, 0x34, 0x12] = .ok (.jmpInd 0x1234, []) ∧
    decode [0x20, 0x34, 0x12] = .ok (.jsr 0x1234, []) ∧
    decode [0x60] = .ok (.rts, []) ∧
    decode [0xEA] = .ok (.nop, []) := by
  refine ⟨rfl, rfl, rfl, rfl, rfl, rfl, rfl, rfl, rfl, rfl, rfl, rfl, rfl⟩

/-- One word of each family, its bits from R91's patterns and R97's opcodes. -/
theorem test_decode_bitByBit :
    decode [0b10111101, 0b11111111, 0b00010000] = .ok (.ldaAbsX 0x10FF, []) ∧
    decode [0b00100100, 0b01000000] = .ok (.bitZp 0x40, []) ∧
    decode [0b10011010] = .ok (.txs, []) ∧
    decode [0b01110001, 0b01000000] = .ok (.adcIndY 0x40, []) ∧
    decode [0b11111000] = .ok (.sed, []) ∧
    decode [0b11010000, 0b11111011] = .ok (.bne 0xFB, []) ∧
    decode [0b01101100, 0b11111111, 0b00010000] = .ok (.jmpInd 0x10FF, []) := by
  refine ⟨rfl, rfl, rfl, rfl, rfl, rfl, rfl⟩

theorem test_decode_leavesTheRest : decode [0xA9, 0xF0, 0x29, 0x1F] = .ok (.ldaImm 0xF0, [0x29, 0x1F]) := rfl

theorem test_decode_refuses : decode [0x00, 0x00, 0x00] = .error (.unknownOpcode 0x00) ∧
    decode [0xE9, 0x01] = .error (.unknownOpcode 0xE9) ∧ decode [0xAD, 0x00] = .error (.operandMissing 0xAD) := ⟨rfl, rfl, rfl⟩

theorem test_decode_tableWords : decodeTableWord 8 0xEA = some .nop ∧ decodeTableWord 24 0x1234AD = some (.ldaAbs 0x1234) ∧
    decodeTableWord 8 0xAD = some (.ldaAbs 0x0000) ∧ decodeTableWord 8 0x02 = none := by decide

/-! ### Single steps -/

/-- The launch state of 95_test_vectors.md, with the code at `pc`, the bytes listed, and a budget of 10. -/
def launchAt (pc : Word) (code : List Byte) (cells : List (Word × Byte)) : State :=
  { State.reset with
    PC := pc, budget := 10, mem := cells.foldl (fun m c => m.write c.1 c.2) (Memory.writeBytes [] pc code) }

/-- The same at the default PC, 0x0200. -/
def launch (code : List Byte) (cells : List (Word × Byte)) : State := launchAt 0x0200 code cells

/-- One step gives a next state that costs `cycles` and meets `want`. -/
def stepGives (s : State) (cycles : Int) (want : State → Bool) : Bool :=
  match step s with
  | .next t => decide (s.budget - t.budget = cycles) && want t
  | .fault _ => false
  | .refused _ => false

/-- An execute call is done with `cycles` consumed in a state that meets `want`. -/
def callGives (r : Result) (cycles : Int) (want : State → Bool) : Bool :=
  match r with
  | .done t c => decide (c = cycles) && want t
  | .fault _ _ _ => false
  | .refused _ _ _ => false

/-- LS-1 -/
theorem test_lda_zero : stepGives { launch [0xA9, 0x00] [] with A := 0x55 } 2
    (fun t => t.A == 0x00 && t.P == 0x02 && t.PC == 0x0202) = true := by decide

/-- L1-4 -/
theorem test_lda_flagsPure : stepGives { launch [0xA9, 0x00] [] with P := 0x4D } 2
    (fun t => t.P == 0x4F) = true := by decide

/-- L1-3 -/
theorem test_lda_zpX_wraps : stepGives { launch [0xB5, 0x80] [(0x0006, 0x5A), (0x0106, 0x11)] with X := 0x86 } 4
    (fun t => t.A == 0x5A && t.P == 0x00) = true := by decide

/-- L1-2 (a) -/
theorem test_lda_absX_noCross : stepGives { launch [0xBD, 0x00, 0x10] [(0x1001, 0x3C)] with X := 0x01 } 4
    (fun t => t.A == 0x3C) = true := by decide

/-- LS-5 -/
theorem test_lda_absX_wraps : stepGives { launch [0xBD, 0xFF, 0xFF] [(0x0000, 0x44)] with X := 0x01 } 5
    (fun t => t.A == 0x44) = true := by decide

/-- LS-4 -/
theorem test_lda_absY_crosses : stepGives { launch [0xB9, 0xFF, 0x10] [(0x1100, 0x7E)] with Y := 0x01 } 5
    (fun t => t.A == 0x7E) = true := by decide

/-- LS-6 -/
theorem test_lda_indX_pointerAtFF : stepGives { launch [0xA1, 0xFE] [(0x00FF, 0x34), (0x0100, 0x12), (0x1234, 0x99)] with X := 0x01 } 6
    (fun t => t.A == 0x99 && t.P == 0x80) = true := by decide

/-- LS-7 -/
theorem test_lda_indY_crosses : stepGives { launch [0xB1, 0x40] [(0x0040, 0xF0), (0x0041, 0x12), (0x1300, 0x01)] with Y := 0x10 } 6
    (fun t => t.A == 0x01) = true := by decide

/-- LS-8 -/
theorem test_lda_indY_noCross : stepGives { launch [0xB1, 0x40] [(0x0040, 0x00), (0x0041, 0x12), (0x1210, 0x01)] with Y := 0x10 } 5
    (fun t => t.A == 0x01) = true := by decide

/-- LS-3 -/
theorem test_ldx_zpY_wraps : stepGives { launch [0xB6, 0xF0] [(0x000F, 0x33)] with Y := 0x1F } 4
    (fun t => t.X == 0x33 && t.P == 0x00) = true := by decide

/-- R162, example -/
theorem test_ldy_imm : stepGives (launch [0xA0, 0x04] []) 2
    (fun t => t.Y == 0x04 && t.P == 0x00) = true := by decide

/-- LS-9 -/
theorem test_sta_absX_fixedCost : stepGives { launch [0x9D, 0x00, 0x30] [] with A := 0x77, X := 0x05, P := 0xC3 } 5
    (fun t => t.mem.read 0x3005 == 0x77 && t.P == 0xC3) = true := by decide

/-- LS-10 -/
theorem test_sta_indY_fixedCost : stepGives { launch [0x91, 0x40] [(0x0040, 0x00), (0x0041, 0x30)] with A := 0x77, Y := 0x05 } 6
    (fun t => t.mem.read 0x3005 == 0x77) = true := by decide

/-- LS-12 -/
theorem test_stx_ownOpcode : stepGives { launch [0x8E, 0x00, 0x02] [] with X := 0xEA } 4
    (fun t => t.mem.read 0x0200 == 0xEA && t.PC == 0x0203) = true := by decide

/-- LS-11 -/
theorem test_sty_zpX_wraps : stepGives { launch [0x94, 0xFF] [] with Y := 0x66, X := 0x02 } 4
    (fun t => t.mem.read 0x0001 == 0x66) = true := by decide

/-- LG-1 -/
theorem test_and_zero : stepGives { launch [0x29, 0x00] [] with A := 0xFF } 2
    (fun t => t.A == 0x00 && t.P == 0x02) = true := by decide

/-- LG-2 -/
theorem test_ora_keepsCarry : stepGives { launch [0x09, 0x00] [] with P := 0x01 } 2
    (fun t => t.A == 0x00 && t.P == 0x03) = true := by decide

/-- LG-3 -/
theorem test_eor_self : stepGives { launch [0x45, 0x10] [(0x0010, 0x5A)] with A := 0x5A } 3
    (fun t => t.A == 0x00 && t.P == 0x02) = true := by decide

/-- LG-5 -/
theorem test_bit_abs : stepGives { launch [0x2C, 0x00, 0x30] [(0x3000, 0x40)] with A := 0x40, P := 0x01 } 4
    (fun t => t.A == 0x40 && t.P == 0x41) = true := by decide

/-- LG-6 -/
theorem test_bit_negativeFromOperand : stepGives { launch [0x24, 0x10] [(0x0010, 0x80)] with A := 0x7F } 3
    (fun t => t.A == 0x7F && t.P == 0x82) = true := by decide

/-- TS-1 -/
theorem test_txs_noFlags : stepGives (launch [0x9A] []) 2
    (fun t => t.SP == 0x00 && t.P == 0x00) = true := by decide

/-- TS-2 -/
theorem test_tsx_flags : stepGives { launch [0xBA] [] with SP := 0x00 } 2
    (fun t => t.X == 0x00 && t.P == 0x02) = true := by decide

/-- TS-3 -/
theorem test_tax_clearsN : stepGives { launch [0xAA] [] with X := 0x05, P := 0x80 } 2
    (fun t => t.X == 0x00 && t.P == 0x02) = true := by decide

/-- R191, example -/
theorem test_tay : stepGives { launch [0xA8] [] with Y := 0x07 } 2
    (fun t => t.Y == 0x00 && t.P == 0x02) = true := by decide

/-- R192, example -/
theorem test_txa : stepGives { launch [0x8A] [] with X := 0x7F } 2
    (fun t => t.A == 0x7F && t.P == 0x00) = true := by decide

/-- R193, example -/
theorem test_tya : stepGives { launch [0x98] [] with Y := 0xFF } 2
    (fun t => t.A == 0xFF && t.P == 0x80) = true := by decide

/-- TS-4 -/
theorem test_pha_wraps : stepGives { launch [0x48] [] with A := 0x42, SP := 0x00 } 3
    (fun t => t.mem.read 0x0100 == 0x42 && t.SP == 0xFF) = true := by decide

/-- TS-5 -/
theorem test_pla_wraps : stepGives { launch [0x68] [(0x0100, 0x80)] with SP := 0xFF } 4
    (fun t => t.SP == 0x00 && t.A == 0x80 && t.P == 0x80) = true := by decide

/-- TS-6 -/
theorem test_plp_ignoresBits4And5 : stepGives { launch [0x28] [(0x01FF, 0xFF)] with SP := 0xFE } 4
    (fun t => t.P == 0xCF && t.SP == 0xFF) = true := by decide

/-- TS-7 -/
theorem test_plp_clearsAll : stepGives { launch [0x28] [(0x01FF, 0x30)] with SP := 0xFE, P := 0xCF } 4
    (fun t => t.P == 0x00) = true := by decide

/-- L1-6 -/
theorem test_php_forcesBits4And5 : stepGives { launch [0x08] [] with P := 0xCB } 3
    (fun t => t.mem.read 0x01FF == 0xFB && t.SP == 0xFE && t.P == 0xCB) = true := by decide

/-- ID-1 -/
theorem test_inc_wraps : stepGives { launch [0xE6, 0x10] [(0x0010, 0xFF)] with P := 0x41 } 5
    (fun t => t.mem.read 0x0010 == 0x00 && t.P == 0x43) = true := by decide

/-- ID-3 -/
theorem test_inc_absX : stepGives { launch [0xFE, 0xFF, 0x10] [(0x1100, 0x7F)] with X := 0x01 } 7
    (fun t => t.mem.read 0x1100 == 0x80 && t.P == 0x80) = true := by decide

/-- ID-2 -/
theorem test_dec_wraps : stepGives (launch [0xC6, 0x10] []) 5
    (fun t => t.mem.read 0x0010 == 0xFF && t.P == 0x80) = true := by decide

/-- ID-4 -/
theorem test_dec_zpX_wraps : stepGives { launch [0xD6, 0xFF] [(0x0000, 0x01)] with X := 0x01 } 6
    (fun t => t.mem.read 0x0000 == 0x00 && t.P == 0x02) = true := by decide

/-- ID-5 -/
theorem test_inx_wraps : stepGives { launch [0xE8] [] with X := 0xFF } 2
    (fun t => t.X == 0x00 && t.P == 0x02) = true := by decide

/-- R215, corner case -/
theorem test_iny : stepGives { launch [0xC8] [] with Y := 0x7F } 2
    (fun t => t.Y == 0x80 && t.P == 0x80) = true := by decide

/-- R216, example -/
theorem test_dex : stepGives { launch [0xCA] [] with X := 0x01 } 2
    (fun t => t.X == 0x00 && t.P == 0x02) = true := by decide

/-- ID-6 -/
theorem test_dey_wraps : stepGives (launch [0x88] []) 2
    (fun t => t.Y == 0xFF && t.P == 0x80) = true := by decide

/-- L1-5 -/
theorem test_adc_overflow : stepGives { launch [0x69, 0x83] [] with A := 0x82 } 2
    (fun t => t.A == 0x05 && t.P == 0x41) = true := by decide

/-- ID-7 -/
theorem test_adc_decimalIgnored : stepGives { launch [0x69, 0x01] [] with A := 0x09, P := 0x08 } 2
    (fun t => t.A == 0x0A && t.P == 0x08) = true := by decide

/-- FL-1 -/
theorem test_clc : stepGives { launch [0x18] [] with P := 0xCF } 2
    (fun t => t.P == 0xCE) = true := by decide

/-- FL-2 -/
theorem test_sec : stepGives { launch [0x38] [] with P := 0x00 } 2
    (fun t => t.P == 0x01) = true := by decide

/-- FL-3 -/
theorem test_cli : stepGives { launch [0x58] [] with P := 0xCF } 2
    (fun t => t.P == 0xCB) = true := by decide

/-- FL-4 -/
theorem test_sei : stepGives { launch [0x78] [] with P := 0x00 } 2
    (fun t => t.P == 0x04) = true := by decide

/-- FL-5 -/
theorem test_clv : stepGives { launch [0xB8] [] with P := 0xCF } 2
    (fun t => t.P == 0x8F) = true := by decide

/-- FL-6 -/
theorem test_cld : stepGives { launch [0xD8] [] with P := 0xCF } 2
    (fun t => t.P == 0xC7) = true := by decide

/-- FL-7 -/
theorem test_sed : stepGives { launch [0xF8] [] with P := 0x00 } 2
    (fun t => t.P == 0x08) = true := by decide

/-- CF-1 -/
theorem test_bpl_notTaken : stepGives { launch [0x10, 0x10] [] with P := 0x80 } 2
    (fun t => t.PC == 0x0202) = true := by decide

/-- R242, example -/
theorem test_bmi_notTaken : stepGives (launch [0x30, 0x10] []) 2
    (fun t => t.PC == 0x0202) = true := by decide

/-- R243, example -/
theorem test_bvc_crosses : stepGives (launchAt 0x10F0 [0x50, 0x20] []) 4
    (fun t => t.PC == 0x1112) = true := by decide

/-- CF-7 -/
theorem test_bvs_belowZero : stepGives { launchAt 0x0000 [0x70, 0x80] [] with P := 0x40 } 4
    (fun t => t.PC == 0xFF82) = true := by decide

/-- CF-8 -/
theorem test_bcc_toItself : stepGives (launchAt 0x0300 [0x90, 0xFE] []) 3
    (fun t => t.PC == 0x0300) = true := by decide

/-- CF-5 -/
theorem test_bcs_farBack : stepGives { launch [0xB0, 0x80] [] with P := 0x01 } 4
    (fun t => t.PC == 0x0182) = true := by decide

/-- CF-6 -/
theorem test_bne_overTheTop : stepGives (launchAt 0xFFF0 [0xD0, 0x20] []) 4
    (fun t => t.PC == 0x0012) = true := by decide

/-- CF-3 -/
theorem test_beq_farForward : stepGives { launch [0xF0, 0x7F] [] with P := 0x02 } 3
    (fun t => t.PC == 0x0281) = true := by decide

/-- CF-4 -/
theorem test_beq_crosses : stepGives { launchAt 0x02F0 [0xF0, 0x7F] [] with P := 0x02 } 4
    (fun t => t.PC == 0x0371) = true := by decide

/-- L1-13 -/
theorem test_jmp_abs : stepGives (launch [0x4C, 0x00, 0x30] []) 3
    (fun t => t.PC == 0x3000) = true := by decide

/-- CF-9 -/
theorem test_jmp_ind_acrossPage : stepGives (launch [0x6C, 0xFF, 0x10] [(0x10FF, 0x34), (0x1100, 0x12), (0x1000, 0x56)]) 5
    (fun t => t.PC == 0x1234) = true := by decide

/-- CF-10 -/
theorem test_jmp_ind_wraps : stepGives (launch [0x6C, 0xFF, 0xFF] [(0xFFFF, 0x00), (0x0000, 0x03)]) 5
    (fun t => t.PC == 0x0300) = true := by decide

/-- R250, example -/
theorem test_jsr : stepGives (launchAt 0x1000 [0x20, 0x10, 0x30] []) 6
    (fun t => t.PC == 0x3010 && t.SP == 0xFD && t.mem.read 0x01FF == 0x10 && t.mem.read 0x01FE == 0x02) = true := by decide

/-- TS-9 -/
theorem test_jsr_acrossTheWrap : stepGives { launchAt 0x1234 [0x20, 0x00, 0x30] [] with SP := 0x00 } 6
    (fun t => t.PC == 0x3000 && t.SP == 0xFE && t.mem.read 0x0100 == 0x12 && t.mem.read 0x01FF == 0x36) = true := by decide

/-- TS-10 -/
theorem test_rts_acrossTheWrap : stepGives { launchAt 0x3010 [0x60] [(0x0100, 0x12), (0x01FF, 0x36)] with SP := 0xFE } 6
    (fun t => t.PC == 0x1237 && t.SP == 0x00) = true := by decide

/-- CF-11 -/
theorem test_rts_wraps : stepGives { launch [0x60] [(0x01FE, 0xFF), (0x01FF, 0xFF)] with SP := 0xFD } 6
    (fun t => t.PC == 0x0000 && t.SP == 0xFF) = true := by decide

/-- L1-13 -/
theorem test_nop : stepGives { launch [0xEA] [] with P := 0xCF, A := 0x01 } 2
    (fun t => t.P == 0xCF && t.A == 0x01 && t.PC == 0x0201 && t.SP == 0xFF) = true := by decide

/-- CF-12 -/
theorem test_fetch_wraps : stepGives (launchAt 0xFFFF [0xA9, 0x5C] []) 2
    (fun t => t.A == 0x5C && t.PC == 0x0001) = true := by decide

/-- EX-3, EX-4, EX-5 -/
theorem test_unknownOpcode : step (launch [0x02] []) = .fault (.unknownOpcode 0x02 0x0200) ∧
    step (launch [0xE9, 0x01] []) = .fault (.unknownOpcode 0xE9 0x0200) ∧
    step (launch [0xFF] []) = .fault (.unknownOpcode 0xFF 0x0200) ∧
    step State.reset = .fault (.unknownOpcode 0x00 0x0000) := ⟨rfl, rfl, rfl, rfl⟩

/-- The truth table of 95_test_vectors.md L2.4, its rows with a carry or an overflow. -/
theorem test_adc8 : adc8 0x50 0x50 false = ⟨0xA0, false, true⟩ ∧ adc8 0x50 0xD0 false = ⟨0x20, true, false⟩ ∧
    adc8 0xD0 0x90 false = ⟨0x60, true, true⟩ ∧ adc8 0xFF 0x00 true = ⟨0x00, true, false⟩ ∧
    adc8 0x7F 0x00 true = ⟨0x80, false, true⟩ ∧ adc8 0xFF 0xFF true = ⟨0xFF, true, false⟩ ∧
    adc8 0x80 0x80 false = ⟨0x00, true, true⟩ := by decide

/-! ### The execute call, memory, reset and load -/

/-- EX-1, EX-2 -/
theorem test_execute_noBudget : callGives (execute 0 (launch [0xEA] [])) 0 (fun t => t.PC == 0x0200) = true ∧
    callGives (execute (-5) (launch [0xEA] [])) 0 (fun t => t.PC == 0x0200) = true := by decide

/-- EX-8 -/
theorem test_execute_overruns : callGives (execute 1 (launch [0xAD, 0x00, 0x30] [])) 4
    (fun t => t.PC == 0x0203 && t.A == 0x00 && t.P == 0x02) = true := by decide

/-- EX-7: the budget ends before the unknown opcode is fetched. -/
theorem test_execute_budgetFirst : callGives (execute 2 (launch [0xEA, 0xE9, 0x01] [])) 2 (fun t => t.PC == 0x0201) = true := by
  decide

/-- EX-3 -/
theorem test_execute_faults : execute 1 (launch [0x02] []) =
    .fault (.unknownOpcode 0x02 0x0200) { launch [0x02] [] with budget := 0 } 0 := by decide

/-- MR-1, MR-2 -/
theorem test_readWord : (launch [] [(0x1234, 0xCD), (0x1235, 0xAB)]).mem.readWord 0x1234 = 0xABCD ∧
    (launch [] [(0xFFFF, 0x00), (0x0000, 0x03)]).mem.readWord 0xFFFF = 0x0300 := by decide

/-- MR-3 -/
theorem test_reset : resetRegisters { launch [] [(0xFFFD, 0x80)] with A := 0x11, SP := 0x22, P := 0xFF } =
    { launch [] [(0xFFFD, 0x80)] with PC := 0x8000 } := by decide

/-- MR-6: the vector bytes are written after the body. -/
theorem test_load_overVector : (match load [0xFD, 0xFF, 0x11, 0x22, 0x33] State.reset with
    | .next t => t.mem.read 0xFFFC == 0xFD && t.mem.read 0xFFFD == 0xFF && t.mem.read 0xFFFE == 0x22 &&
        t.mem.read 0xFFFF == 0x33 && (resetRegisters t).PC == 0xFFFD
    | .fault _ => false
    | .refused _ => false) = true := by decide

/-- MR-7, MR-8 -/
theorem test_load_refuses : load [0x00] State.reset = .refused .loadBufferTooShort ∧
    load [0xFF, 0xFF, 0x01, 0x02] State.reset = .refused .loadPastEnd := ⟨rfl, rfl⟩

/-- R101's examples and the listing of L3-P5. -/
theorem test_assemblyText : assemblyText 0x2000 (.ldaImm 0xF0) = ['L', 'D', 'A', ' ', '#', '$', 'F', '0'] ∧
    assemblyText 0x0307 (.bne 0xFB) = ['B', 'N', 'E', ' ', '$', '0', '3', '0', '4'] ∧
    assemblyText 0x0305 (.staIndY 0x20) = ['S', 'T', 'A', ' ', '(', '$', '2', '0', ')', ',', 'Y'] ∧
    assemblyText 0x1000 .inx = ['I', 'N', 'X'] ∧ assembleBranch 0x0307 0x0304 = some 0xFB := by decide

/-! ### A witness for the hypotheses of each statement that has some -/

/-- One NOP at 0x0200. -/
def nopState : State := launch [0xEA] []

/-- The state after it. -/
def nopDone : State := { nopState with PC := 0x0201, budget := 8 }

theorem test_nopDone : exec .nop nopState = .next nopDone ∧ step nopState = .next nopDone := ⟨rfl, rfl⟩

/-- Each clause at its boundary: a body that ends at 0xFFFF, its bytes off the vector and an address outside, a buffer of one
byte, and a body one byte too long. -/
theorem test_witness_LoadPlacesProgram :
    (0xFF#8 ++ 0xFF#8 : Word).toNat + [0x01#8].length ≤ 0x10000 ∧ 0 < [0x01#8].length ∧
    (0xFF#8 ++ 0xFF#8 : Word) + BitVec.ofNat 16 0 ≠ 0xFFFC#16 ∧ (0xFF#8 ++ 0xFF#8 : Word) + BitVec.ofNat 16 0 ≠ 0xFFFD#16 ∧
    (0x0000#16 ≠ 0xFFFC#16 ∧ 0x0000#16 ≠ 0xFFFD#16 ∧
      ∀ k, k < [0x01#8].length → 0x0000#16 ≠ (0xFF#8 ++ 0xFF#8 : Word) + BitVec.ofNat 16 k) ∧
    [0x00#8].length < 2 ∧ 0x10000 < (0xFF#8 ++ 0xFF#8 : Word).toNat + [0x01#8, 0x02#8].length := by decide

theorem test_witness_CanonicalMemoriesAreEqual :
    Memory.wf [(5, 0x01#8)] ∧ Memory.wf (Memory.write [] 0x0005 0x01) ∧
    ∀ a, Memory.read [(5, 0x01#8)] a = Memory.read (Memory.write [] 0x0005 0x01) a :=
  ⟨by decide, by decide, fun _ => rfl⟩

/-- The addresses next to page 1 on both sides. -/
theorem test_witness_StackStaysInPageOne :
    (0x00FF#16).extractLsb' 8 8 ≠ 0x01#8 ∧ (0x0200#16).extractLsb' 8 8 ≠ 0x01#8 := by decide

/-- At the wrap, with A changed in between. -/
theorem test_witness_PulledWordIsThePushedOne :
    let s := { State.reset with SP := 0x00 }
    let t := { pushWord 0x1236 s with A := 0x55 }
    t.SP = (pushWord 0x1236 s).SP ∧ t.mem = (pushWord 0x1236 s).mem := by decide

/-- NOP is in none of the lists. -/
theorem test_witness_FlagsChangeOnlyWhereListed : exec .nop nopState = .next nopDone ∧
    Instr.nop.mnemonic ∉ [Mnemonic.ADC, .CLC, .SEC, .PLP] ∧ Instr.nop.mnemonic ∉ [Mnemonic.SEI, .CLI, .PLP] ∧
    Instr.nop.mnemonic ∉ [Mnemonic.SED, .CLD, .PLP] ∧ Instr.nop.mnemonic ∉ [Mnemonic.ADC, .BIT, .CLV, .PLP] ∧
    Instr.nop.mnemonic ∉ [Mnemonic.LDA, .LDX, .LDY, .AND, .ORA, .EOR, .BIT, .TAX, .TAY, .TXA, .TYA, .TSX, .PLA, .INC, .DEC,
      .INX, .INY, .DEX, .DEY, .ADC, .PLP] := ⟨rfl, by decide, by decide, by decide, by decide, by decide⟩

/-- Every branch is taken in one of these two states and not in the other. -/
theorem test_witness_BranchesTestTheirFlag :
    (∀ k ∈ [0, 1, 6, 7], State.reset.P.getLsbD k = false) ∧
    ∀ k ∈ [0, 1, 6, 7], { State.reset with P := 0xC3 }.P.getLsbD k = true := by decide

/-- The state JSR leaves itself meets the inner hypotheses, with another A and PC. -/
theorem test_witness_RtsReturnsBehindJsr :
    stepGives (launch [0x20, 0x10, 0x30] []) 6 (fun t =>
      decide (({ t with A := 0x55, PC := 0x4000 } : State).SP = t.SP ∧ ({ t with A := 0x55, PC := 0x4000 } : State).mem = t.mem)) =
      true := by decide

theorem test_witness_RegistersChangeOnlyWhereListed : exec .nop nopState = .next nopDone ∧
    Instr.nop.mnemonic ∉ [Mnemonic.LDA, .AND, .ORA, .EOR, .ADC, .TXA, .TYA, .PLA] ∧
    Instr.nop.mnemonic ∉ [Mnemonic.LDX, .TAX, .TSX, .INX, .DEX] ∧ Instr.nop.mnemonic ∉ [Mnemonic.LDY, .TAY, .INY, .DEY] ∧
    Instr.nop.mnemonic ∉ [Mnemonic.TXS, .PHA, .PHP, .PLA, .PLP, .JSR, .RTS] :=
  ⟨rfl, by decide, by decide, by decide, by decide⟩

theorem test_witness_MemoryAndPcChangeOnlyWhereListed : exec .nop nopState = .next nopDone ∧
    Instr.nop.mnemonic ∉ [Mnemonic.STA, .STX, .STY, .INC, .DEC, .PHA, .PHP, .JSR] ∧
    Instr.nop.mnemonic ∉ [Mnemonic.BPL, .BMI, .BVC, .BVS, .BCC, .BCS, .BNE, .BEQ, .JMP, .JSR, .RTS] :=
  ⟨rfl, by decide, by decide⟩

/-- NOP for registers carried through; TYA, LDX and LDY for registers written. -/
theorem test_witness_RegistersReadOnlyWhereListed : exec .nop nopState = .next nopDone ∧
    Instr.nop.mnemonic ∉ [Mnemonic.STA, .AND, .ORA, .EOR, .ADC, .BIT, .TAX, .TAY, .PHA] ∧
    Instr.nop.mnemonic ∉ [Mnemonic.STX, .TXA, .TXS, .INX, .DEX] ∧
    Instr.nop.mode ∉ [Mode.zeroPageX, .absoluteX, .absoluteXStore, .indirectX] ∧
    Instr.nop.mnemonic ∉ [Mnemonic.STY, .TYA, .INY, .DEY] ∧
    Instr.nop.mode ∉ [Mode.zeroPageY, .absoluteY, .absoluteYStore, .indirectY, .indirectYStore] ∧
    Instr.tya.mnemonic ∉ [Mnemonic.STA, .AND, .ORA, .EOR, .ADC, .BIT, .TAX, .TAY, .PHA] ∧
    (Instr.ldxImm 0x00).mnemonic ∉ [Mnemonic.STX, .TXA, .TXS, .INX, .DEX] ∧
    (Instr.ldyImm 0x00).mnemonic ∉ [Mnemonic.STY, .TYA, .INY, .DEY] :=
  ⟨rfl, by decide, by decide, by decide, by decide, by decide, by decide, by decide, by decide⟩

/-- P.I and P.D set beside P.I and P.D clear. -/
theorem test_witness_InterruptAndDecimalFlagsSteerNothing : Instr.nop.mnemonic ≠ .PHP ∧
    (∀ k < 8, k ≠ 2 → k ≠ 3 → (0x0C#8).getLsbD k = nopState.P.getLsbD k) ∧ exec .nop nopState = .next nopDone :=
  ⟨by decide, by decide, rfl⟩

theorem test_witness_BudgetSteersNoInstruction : exec .nop nopState = .next nopDone := rfl

theorem test_witness_StepRunsTheDecodedInstruction :
    decode [nopState.mem.read nopState.PC, nopState.mem.read (nopState.PC + 1), nopState.mem.read (nopState.PC + 2)] =
      .ok (.nop, [0x00, 0x00]) := rfl

/-- A three-byte instruction whose last byte stands at 0x0000. -/
theorem test_witness_StepRunsTheEncodingAtPc :
    let s := launchAt 0xFFFE [0xBD, 0xFF, 0x10] []
    encode (.ldaAbsX 0x10FF) = [0xBD, 0xFF, 0x10] ∧
    s.mem.read (s.PC + BitVec.ofNat 16 0) = 0xBD ∧ s.mem.read (s.PC + BitVec.ofNat 16 1) = 0xFF ∧
    s.mem.read (s.PC + BitVec.ofNat 16 2) = 0x10 := by decide

/-- The first and the last byte value on the one side, their neighbours on the other. -/
theorem test_witness_StepFaultsExactlyOnUnrecognizedBytes :
    (launch [0x00] []).mem.read 0x0200 ∈ unrecognized ∧ (launch [0xFF] []).mem.read 0x0200 ∈ unrecognized ∧
    (launch [0x01] []).mem.read 0x0200 ∉ unrecognized ∧ (launch [0xFE] []).mem.read 0x0200 ∉ unrecognized := by decide

theorem test_witness_StepKeepsTheInvariant : nopState.Inv ∧ step nopState = .next nopDone :=
  ⟨⟨by decide, by decide⟩, rfl⟩

/-- A launch state with bits 4 and 5 of P set. -/
theorem test_witness_StepKeepsBreakAndUnusedBits :
    step { nopState with P := 0xFF } = .next { nopDone with P := 0xFF } := rfl

theorem test_witness_StepRunsThePlacedTableWord : decodeTableWord 24 0x10FFBD = some (.ldaAbsX 0x10FF) := by decide

theorem test_witness_EncodeOfDecode : decode [0xBD, 0xFF, 0x10, 0xEA] = .ok (.ldaAbsX 0x10FF, [0xEA]) := rfl

/-- Each clause: no budget, a budget of 1 before a NOP, and a budget of 1 before an unrecognized byte. -/
theorem test_witness_ExecuteFollowsItsLoop : (0 : Int) ≤ 0 ∧
    ((0 : Int) < 1 ∧ step { nopState with budget := 1 } = .next { nopDone with budget := -1 }) ∧
    ((0 : Int) < 1 ∧ step { State.reset with budget := 1 } = .fault (.unknownOpcode 0x00 0x0000)) :=
  ⟨by decide, ⟨by decide, rfl⟩, by decide, rfl⟩

theorem test_witness_ExecuteConsumesItsBudget :
    (0 : Int) < 1 ∧ execute 1 nopState = .done { nopDone with budget := 0 } 2 := by decide

theorem test_witness_BudgetOneRunsOneInstruction :
    step { nopState with budget := 1 } = .next { nopDone with budget := -1 } := rfl

/-- A done call and a faulting one from states that meet the invariant. -/
theorem test_witness_ExecuteKeepsTheInvariant : State.reset.Inv ∧ nopState.Inv ∧
    callGives (execute 1 nopState) 2 (fun _ => true) = true :=
  ⟨⟨by decide, by decide⟩, ⟨by decide, by decide⟩, by decide⟩

end Sys2Proof.Tests
end

section
/-! SUPPORT. The frames of every instruction read off `effect`: what each may do to memory, A, X, Y, SP, PC and
the bits of P (10_state.md R31 to R40). -/

namespace Sys2Proof.Machine

/-- An instruction's next state is its closed form. -/
theorem eq_effect_of_exec {i : Instr} {s t : State} (h : exec i s = .next t) : t = effect i s :=
  Host.Outcome.next.inj (h.symm.trans (exec_eq_effect s i))

/-! ### Memory (R163 to R165, R196, R197, R212, R213, R250) -/

/-- The mnemonics that write memory. -/
def storingMnemonics : List Mnemonic := [.STA, .STX, .STY, .INC, .DEC, .PHA, .PHP, .JSR]

/-- The ways an instruction can leave memory. -/
inductive MemoryChange (m : Memory) : Mnemonic → Memory → Prop where
  | same (n : Mnemonic) : MemoryChange m n m
  | store {n : Mnemonic} (h : n ∈ storingMnemonics) (a : Word) (v : Byte) : MemoryChange m n (m.write a v)
  | call (a b : Word) (v w : Byte) : MemoryChange m .JSR ((m.write a v).write b w)

/-- Every instruction leaves memory in one of these ways. -/
theorem effect_memory (i : Instr) (s : State) : MemoryChange s.mem i.mnemonic (effect i s).mem := by
  cases i with
  | staZp | staZpX | staAbs | staAbsX | staAbsY | staIndX | staIndY | stxZp | stxZpY | stxAbs | styZp | styZpX
  | styAbs | incZp | incZpX | incAbs | incAbsX | decZp | decZpX | decAbs | decAbsX | pha | php =>
    exact .store (by simp [Instr.mnemonic, storingMnemonics]) _ _
  | jsr => exact .call _ _ _ _
  | _ => exact .same _

theorem MemoryChange.wf {m m' : Memory} {n : Mnemonic} (h : MemoryChange m n m') (hm : m.wf) : m'.wf := by
  cases h with
  | same => exact hm
  | store _ a v => exact Memory.wf_write hm a v
  | call a b v w => exact Memory.wf_write (Memory.wf_write hm a v) b w

theorem MemoryChange.eq_of_not_storing {m m' : Memory} {n : Mnemonic} (h : MemoryChange m n m')
    (hn : n ∉ storingMnemonics) : m' = m := by
  cases h with
  | same => rfl
  | store h => exact absurd h hn
  | call => exact absurd (by decide) hn

/-! ### Registers and PC (R31 to R35) -/

section registers

variable {i : Instr} (s : State)

theorem effect_A (h : i.mnemonic ∉ [.LDA, .AND, .ORA, .EOR, .ADC, .TXA, .TYA, .PLA]) : (effect i s).A = s.A := by
  cases i with
  | ldaImm | ldaZp | ldaZpX | ldaAbs | ldaAbsX | ldaAbsY | ldaIndX | ldaIndY | andImm | andZp | andZpX | andAbs
  | andAbsX | andAbsY | andIndX | andIndY | oraImm | oraZp | oraZpX | oraAbs | oraAbsX | oraAbsY | oraIndX
  | oraIndY | eorImm | eorZp | eorZpX | eorAbs | eorAbsX | eorAbsY | eorIndX | eorIndY | adcImm | adcZp | adcZpX
  | adcAbs | adcAbsX | adcAbsY | adcIndX | adcIndY | txa | tya | pla => simp [Instr.mnemonic] at h
  | _ => rfl

theorem effect_X (h : i.mnemonic ∉ [.LDX, .TAX, .TSX, .INX, .DEX]) : (effect i s).X = s.X := by
  cases i with
  | ldxImm | ldxZp | ldxZpY | ldxAbs | ldxAbsY | tax | tsx | inx | dex => simp [Instr.mnemonic] at h
  | _ => rfl

theorem effect_Y (h : i.mnemonic ∉ [.LDY, .TAY, .INY, .DEY]) : (effect i s).Y = s.Y := by
  cases i with
  | ldyImm | ldyZp | ldyZpX | ldyAbs | ldyAbsX | tay | iny | dey => simp [Instr.mnemonic] at h
  | _ => rfl

theorem effect_SP (h : i.mnemonic ∉ [.TXS, .PHA, .PHP, .PLA, .PLP, .JSR, .RTS]) : (effect i s).SP = s.SP := by
  cases i with
  | txs | pha | php | pla | plp | jsr | rts => simp [Instr.mnemonic] at h
  | _ => rfl

theorem effect_PC (h : i.mnemonic ∉ [.BPL, .BMI, .BVC, .BVS, .BCC, .BCS, .BNE, .BEQ, .JMP, .JSR, .RTS]) :
    (effect i s).PC = s.PC + BitVec.ofNat 16 i.mode.length := by
  cases i with
  | bpl | bmi | bvc | bvs | bcc | bcs | bne | beq | jmpAbs | jmpInd | jsr | rts => simp [Instr.mnemonic] at h
  | _ => rfl

/-! ### Two runs that differ in one register (R31, R32) -/

theorem effect_replace_A (v : Byte) (h : i.mnemonic ∉ [.STA, .AND, .ORA, .EOR, .ADC, .BIT, .TAX, .TAY, .PHA]) :
    effect i { s with A := v } =
      if i.mnemonic ∈ [.LDA, .TXA, .TYA, .PLA] then effect i s else { effect i s with A := v } := by
  cases i with
  | staZp | staZpX | staAbs | staAbsX | staAbsY | staIndX | staIndY | andImm | andZp | andZpX | andAbs | andAbsX
  | andAbsY | andIndX | andIndY | oraImm | oraZp | oraZpX | oraAbs | oraAbsX | oraAbsY | oraIndX | oraIndY
  | eorImm | eorZp | eorZpX | eorAbs | eorAbsX | eorAbsY | eorIndX | eorIndY | adcImm | adcZp | adcZpX | adcAbs
  | adcAbsX | adcAbsY | adcIndX | adcIndY | bitZp | bitAbs | tax | tay | pha => simp [Instr.mnemonic] at h
  | _ => rfl

theorem effect_replace_X (v : Byte) (h : i.mnemonic ∉ [.STX, .TXA, .TXS, .INX, .DEX])
    (hm : i.mode ∉ [.zeroPageX, .absoluteX, .absoluteXStore, .indirectX]) :
    effect i { s with X := v } =
      if i.mnemonic ∈ [.LDX, .TAX, .TSX] then effect i s else { effect i s with X := v } := by
  cases i with
  | stxZp | stxZpY | stxAbs | txa | txs | inx | dex => simp [Instr.mnemonic] at h
  | ldaZpX | ldyZpX | staZpX | styZpX | andZpX | oraZpX | eorZpX | incZpX | decZpX | adcZpX | ldaAbsX | ldyAbsX
  | andAbsX | oraAbsX | eorAbsX | adcAbsX | staAbsX | incAbsX | decAbsX | ldaIndX | staIndX | andIndX | oraIndX
  | eorIndX | adcIndX => simp [Instr.mode] at hm
  | _ => rfl

theorem effect_replace_Y (v : Byte) (h : i.mnemonic ∉ [.STY, .TYA, .INY, .DEY])
    (hm : i.mode ∉ [.zeroPageY, .absoluteY, .absoluteYStore, .indirectY, .indirectYStore]) :
    effect i { s with Y := v } =
      if i.mnemonic ∈ [.LDY, .TAY] then effect i s else { effect i s with Y := v } := by
  cases i with
  | styZp | styZpX | styAbs | tya | iny | dey => simp [Instr.mnemonic] at h
  | ldxZpY | stxZpY | ldaAbsY | ldxAbsY | andAbsY | oraAbsY | eorAbsY | adcAbsY | staAbsY | ldaIndY | andIndY
  | oraIndY | eorIndY | adcIndY | staIndY => simp [Instr.mode] at hm
  | _ => rfl

end registers

/-! ### The bits of P (R37, R39, R40) -/

/-- The mnemonics that may write a flag (R37, R40); none writes bits 4 and 5 (R39). -/
def Flag.writers : Flag → List Mnemonic
  | .C => [.ADC, .CLC, .SEC, .PLP]
  | .I => [.SEI, .CLI, .PLP]
  | .D => [.SED, .CLD, .PLP]
  | .B | .U => []
  | .V => [.ADC, .BIT, .CLV, .PLP]
  | .Z | .N => [.LDA, .LDX, .LDY, .AND, .ORA, .EOR, .BIT, .TAX, .TAY, .TXA, .TYA, .TSX, .PLA, .INC, .DEC, .INX,
      .INY, .DEX, .DEY, .ADC, .PLP]

theorem Flag.ne_of_writers {f g : Flag} {m : Mnemonic} (hf : m ∉ f.writers) (hg : m ∈ g.writers) : f ≠ g := by
  rintro rfl; exact hf hg

theorem getFlag_assignZN_other (p v : Byte) {f : Flag} (hz : f ≠ .Z) (hn : f ≠ .N) :
    getFlag (assignZN p v) f = getFlag p f := by
  rw [assignZN, getFlag_setFlag_other _ _ hn, getFlag_setFlag_other _ _ hz]

theorem getFlag_pulledP_of_not_writer (p v : Byte) {f : Flag} (h : .PLP ∉ f.writers) :
    getFlag (pulledP p v) f = getFlag p f := by
  have hbit : f.bit = 4 ∨ f.bit = 5 := by cases f <;> revert h <;> decide
  rw [getFlag, getLsbD_pulledP, if_pos hbit, getFlag]

/-- A flag outlives every change of P by an instruction that is not among its writers. -/
theorem StatusChange.getFlag_eq {p q : Byte} {m : Mnemonic} (h : StatusChange p m q) {f : Flag}
    (hf : m ∉ f.writers) : getFlag q f = getFlag p f := by
  have ne {g : Flag} (hg : m ∈ g.writers) : f ≠ g := Flag.ne_of_writers hf hg
  cases h with
  | same => rfl
  | assign hm v =>
    have hz : ∀ m ∈ assigningMnemonics, m ∈ Flag.writers .Z ∧ m ∈ Flag.writers .N := by decide
    exact getFlag_assignZN_other p v (ne (hz m hm).1) (ne (hz m hm).2)
  | add c o r =>
    rw [getFlag_assignZN_other _ _ (ne (by decide)) (ne (by decide)),
      getFlag_setFlag_other _ _ (ne (by decide)), getFlag_setFlag_other _ _ (ne (by decide))]
  | test z n o =>
    rw [getFlag_setFlag_other _ _ (ne (by decide)), getFlag_setFlag_other _ _ (ne (by decide)),
      getFlag_setFlag_other _ _ (ne (by decide))]
  | clc | sec | cli | sei | clv | cld | sed => exact getFlag_setFlag_other _ _ (ne (by decide))
  | pull v => exact getFlag_pulledP_of_not_writer p v hf

theorem effect_getFlag {i : Instr} (s : State) {f : Flag} (h : i.mnemonic ∉ f.writers) :
    getFlag (effect i s).P f = getFlag s.P f :=
  (effect_status i s).getFlag_eq h

/-- Two status bytes that agree in bits 4 and 5 agree under the mask 0x30. -/
theorem and_0x30_eq {p q : Byte} (hb : getFlag p .B = getFlag q .B) (hu : getFlag p .U = getFlag q .U) :
    p &&& 0x30#8 = q &&& 0x30#8 := by
  have hmask : ∀ k < 8, (0x30#8).getLsbD k = decide (k = 4 ∨ k = 5) := by decide
  refine status_ext fun k hk => ?_
  rw [BitVec.getLsbD_and, BitVec.getLsbD_and, hmask k hk]
  by_cases h : k = 4 ∨ k = 5
  · rcases h with rfl | rfl
    · exact congrArg (· && _) hb
    · exact congrArg (· && _) hu
  · simp [h]

/-- No instruction changes bits 4 and 5 of P (R39). -/
theorem effect_P_and_0x30 (i : Instr) (s : State) : (effect i s).P &&& 0x30#8 = s.P &&& 0x30#8 :=
  and_0x30_eq (effect_getFlag s (f := .B) List.not_mem_nil) (effect_getFlag s (f := .U) List.not_mem_nil)

/-! ### The invariant (R39; log 3) -/

theorem State.Inv.effect {s : State} (h : s.Inv) (i : Instr) : (effect i s).Inv where
  memCanonical := (effect_memory i s).wf h.memCanonical
  breakAndUnusedClear := (effect_P_and_0x30 i s).trans h.breakAndUnusedClear

theorem State.Inv.step {s t : State} (h : s.Inv) (hs : step s = .next t) : t.Inv := by
  obtain ⟨i, hi⟩ := step_next_inv hs
  rw [eq_effect_of_exec hi]
  exact h.effect i

/-- The invariant does not speak of the budget. -/
theorem State.Inv.withBudget {s : State} (h : s.Inv) (b : Int) : State.Inv { s with budget := b } :=
  ⟨h.memCanonical, h.breakAndUnusedClear⟩

theorem State.Inv.betweenCalls {s : State} (h : s.Inv) : (betweenCalls s).Inv := h.withBudget _

/-- Whatever the loop returns meets the invariant: every pass keeps it, and an end changes only the budget (R126). -/
theorem executeLoop_inv (passes : Nat) (given : Int) {s : State} (h : s.Inv) :
    (Claim.returned (executeLoop passes given s)).Inv := by
  induction passes generalizing s with
  | zero => exact h.betweenCalls
  | succ passes ih =>
    unfold executeLoop
    split
    · exact h.betweenCalls
    · split
      case h_1 t hs => exact ih (h.step hs)
      case h_2 | h_3 => exact h.betweenCalls

/-! ### The obligations -/

/-- Settles O48, from the frames of memory and of bits 4 and 5 of P over one instruction. -/
theorem stepKeepsTheInvariant : Obligations.StepKeepsTheInvariant :=
  fun _ _ h hs => h.step hs

/-- Settles O58, by induction on the passes of the loop. -/
theorem executeKeepsTheInvariant : Obligations.ExecuteKeepsTheInvariant :=
  fun b _ h => executeLoop_inv b.toNat b (h.withBudget b)

/-- Settles O47. -/
theorem resetMeetsTheInvariant : Obligations.ResetMeetsTheInvariant :=
  ⟨reset_mem_wf, by decide⟩

/-- Settles O30, flag by flag from the six ways an instruction can change P. -/
theorem flagsChangeOnlyWhereListed : Obligations.FlagsChangeOnlyWhereListed := by
  intro i s t h
  obtain rfl := eq_effect_of_exec h
  have kept (f : Flag) (hf : i.mnemonic ∉ f.writers) : getFlag (effect i s).P f = getFlag s.P f :=
    effect_getFlag s hf
  exact ⟨kept .C, kept .I, kept .D, kept .B List.not_mem_nil, kept .U List.not_mem_nil, kept .V,
    fun hzn => ⟨kept .Z hzn, kept .N hzn⟩⟩

/-- Settles O38, register by register. -/
theorem registersChangeOnlyWhereListed : Obligations.RegistersChangeOnlyWhereListed := by
  intro i s t h
  obtain rfl := eq_effect_of_exec h
  exact ⟨effect_A s, effect_X s, effect_Y s, effect_SP s⟩

/-- Settles O39: outside the storing mnemonics memory is the same list, so every address reads as before. -/
theorem memoryAndPcChangeOnlyWhereListed : Obligations.MemoryAndPcChangeOnlyWhereListed := by
  intro i s t h
  obtain rfl := eq_effect_of_exec h
  exact ⟨fun hn a => congrArg (Memory.read · a) ((effect_memory i s).eq_of_not_storing hn), effect_PC s⟩

/-- Settles O40, by comparing the closed forms of the two runs. -/
theorem registersReadOnlyWhereListed : Obligations.RegistersReadOnlyWhereListed := by
  intro i s t v h
  obtain rfl := eq_effect_of_exec h
  simp only [exec_eq_effect]
  exact ⟨fun hA => congrArg _ (effect_replace_A s v hA), fun hX hm => congrArg _ (effect_replace_X s v hX hm),
    fun hY hm => congrArg _ (effect_replace_Y s v hY hm)⟩

end Sys2Proof.Machine
end

section
/-! SUPPORT. Memory read whole: a canonical list is fixed by its reads, a word is written and read back, and the
stack's accesses stay in page 1 (20_memory.md R60 to R64, R70 to R74). -/

namespace Sys2Proof.Machine

/-! ### The cells of a canonical memory (R60; log 3) -/

/-- A cell is listed exactly when its byte is the one read there and differs from what an unlisted address reads as. -/
theorem Memory.mem_iff_read {m : Memory} (h : m.wf) (a : Word) (v : Byte) :
    (a.toNat, v) ∈ m ↔ m.read a = v ∧ v ≠ Config.unwrittenByte := by
  obtain ⟨hp, hc⟩ := h
  induction m with
  | nil => simpa [Memory.read] using fun h => h.symm
  | cons d m ih =>
    obtain ⟨j, b⟩ := d
    obtain ⟨hbelow, hp⟩ := List.pairwise_cons.mp hp
    obtain ⟨hhead, hc⟩ := List.forall_mem_cons.mp hc
    by_cases hj : j = a.toNat
    · subst hj
      have hnot : (a.toNat, v) ∉ m := fun hm => Nat.lt_irrefl _ (hbelow (a.toNat, v) hm)
      simp only [List.mem_cons, hnot, or_false, Prod.mk.injEq, true_and, Memory.read, if_true]
      exact ⟨fun hv => ⟨hv.symm, hv ▸ hhead.2⟩, fun hv => hv.1.symm⟩
    · simp only [List.mem_cons, Prod.mk.injEq, Ne.symm hj, false_and, false_or, Memory.read, hj, if_false]
      exact ih hp hc

/-- Every listed cell stands at a word's address. -/
theorem Memory.exists_address {m : Memory} (h : m.wf) {c : Host.Cell} (hc : c ∈ m) : ∃ a : Word, c = (a.toNat, c.2) :=
  ⟨BitVec.ofNat 16 c.1, by rw [BitVec.toNat_ofNat, Nat.mod_eq_of_lt (h.2 c hc).1]⟩

theorem Memory.subset_of_read {m m' : Memory} (h : m.wf) (h' : m'.wf) (hr : ∀ a, m.read a = m'.read a) : m ⊆ m' := by
  intro c hc
  obtain ⟨a, ha⟩ := Memory.exists_address h hc
  rw [ha] at hc ⊢
  rw [Memory.mem_iff_read h' a, ← hr a]
  exact (Memory.mem_iff_read h a _).mp hc

/-- Strictly rising lists with the same members are the same list. -/
theorem Memory.eq_of_read {m m' : Memory} (h : m.wf) (h' : m'.wf) (hr : ∀ a, m.read a = m'.read a) : m = m' := by
  have : Std.Irrefl (fun c d : Host.Cell => c.1 < d.1) := ⟨fun c => Nat.lt_irrefl c.1⟩
  have : Std.Antisymm (fun c d : Host.Cell => c.1 < d.1) := ⟨fun _ _ hcd hdc => absurd hcd (Nat.lt_asymm hdc)⟩
  exact List.Subset.antisymm_of_pairwise h.1 h'.1 (Memory.subset_of_read h h' hr)
    (Memory.subset_of_read h' h fun a => (hr a).symm)

/-! ### Words (R63, R64) -/

/-- The second byte of a word stands at another address, also past 0xFFFF. -/
theorem word_ne_add_one (a : Word) : a ≠ a + 1 := by bv_omega

theorem Memory.read_writeWord_low (m : Memory) (a w : Word) : (m.writeWord a w).read a = loByte w := by
  rw [Memory.writeWord, Memory.read_write_other _ _ (word_ne_add_one a), Memory.read_write_same]

theorem Memory.read_writeWord_high (m : Memory) (a w : Word) : (m.writeWord a w).read (a + 1) = hiByte w :=
  Memory.read_write_same _ _ _

theorem Memory.read_writeWord_other (m : Memory) {a x : Word} (w : Word) (ha : x ≠ a) (ha' : x ≠ a + 1) :
    (m.writeWord a w).read x = m.read x := by
  rw [Memory.writeWord, Memory.read_write_other _ _ ha', Memory.read_write_other _ _ ha]

theorem Memory.readWord_writeWord (m : Memory) (a w : Word) : (m.writeWord a w).readWord a = w := by
  rw [Memory.readWord, Memory.read_writeWord_low, Memory.read_writeWord_high, wordOfBytes_bytes]

theorem Memory.readWord_eq_or_shift (m : Memory) (a : Word) :
    m.readWord a = (m.read a).setWidth 16 ||| ((m.read (a + 1)).setWidth 16 <<< 8) :=
  wordOfBytes_eq_or_shift _ _

/-! ### The stack (R33, R70 to R74) -/

/-- The claims' stack byte is the model's (R33). -/
theorem stack_eq_stackAddr (sp : Byte) : Claim.stack sp = stackAddr sp := rfl

/-- Every stack address lies in page 1 (R74). -/
theorem hiByte_stackAddr (sp : Byte) : hiByte (stackAddr sp) = 0x01#8 := by
  apply BitVec.eq_of_toNat_eq
  have := sp.isLt
  rw [hiByte, BitVec.extractLsb'_toNat, stackAddr_toNat, Nat.shiftRight_eq_div_pow]
  show _ = 1
  omega

theorem ne_stackAddr_of_hiByte {a : Word} (h : hiByte a ≠ 0x01#8) (sp : Byte) : a ≠ stackAddr sp := by
  rintro rfl
  exact h (hiByte_stackAddr sp)

/-- The two bytes of a pushed word stand at two addresses, also at the wrap (R71). -/
theorem stackAddr_ne_stackAddr_sub_one (sp : Byte) : stackAddr sp ≠ stackAddr (sp - 1) := fun h => by
  have := stackAddr_injective h
  bv_omega

section pushed

variable (s : State) (w : Word)

theorem pushWord_read_high : (pushWord w s).mem.read (stackAddr s.SP) = hiByte w := by
  rw [pushWord_mem, Memory.read_write_other _ _ (stackAddr_ne_stackAddr_sub_one s.SP), Memory.read_write_same]

theorem pushWord_read_low : (pushWord w s).mem.read (stackAddr (s.SP - 1)) = loByte w := by
  rw [pushWord_mem, Memory.read_write_same]

theorem pushWord_read_other {a : Word} (ha : a ≠ stackAddr s.SP) (ha' : a ≠ stackAddr (s.SP - 1)) :
    (pushWord w s).mem.read a = s.mem.read a := by
  rw [pushWord_mem, Memory.read_write_other _ _ ha', Memory.read_write_other _ _ ha]

end pushed

/-! ### The obligations -/

/-- Settles O5, from the reads after a word write; the two bytes never share an address. -/
theorem wordsAreLittleEndian : Obligations.WordsAreLittleEndian := by
  intro s a w
  refine ⟨Prod.ext (Memory.readWord_eq_or_shift s.mem a) rfl, s.mem.writeWord a w, rfl, ?_⟩
  exact ⟨Memory.read_writeWord_low _ a w, Memory.read_writeWord_high _ a w,
    fun _ ha ha' => Memory.read_writeWord_other _ w ha ha', Memory.readWord_writeWord _ a w⟩

/-- Settles O6: in canonical form the listed cells are exactly the non-zero reads, in rising order. -/
theorem canonicalMemoriesAreEqual : Obligations.CanonicalMemoriesAreEqual :=
  fun _ _ h h' hr => Memory.eq_of_read h h' hr

/-- Settles O7, from the whole-state form of each primitive. -/
theorem stackPrimitivesPushAndPull : Obligations.StackPrimitivesPushAndPull := by
  intro s v w
  simp only [stack_eq_stackAddr]
  refine ⟨⟨_, fun x => Memory.read_write s.mem _ x v, pushByte_eq s v⟩, ?_, pullByte_eq s, pullWord_eq s⟩
  exact ⟨_, pushWord_read_high s w, pushWord_read_low s w, fun _ ha ha' => pushWord_read_other s w ha ha',
    pushWord_eq s w⟩

/-- Settles O8: an address outside page 1 is none of the stack's. -/
theorem stackStaysInPageOne : Obligations.StackStaysInPageOne := by
  intro s v w
  simp only [stack_eq_stackAddr]
  refine ⟨fun a ha => ?_, Memory.read_write_same _ _ v, rfl, rfl, rfl, hiByte_stackAddr s.SP⟩
  have outside : ∀ sp, a ≠ stackAddr sp := ne_stackAddr_of_hiByte ha
  exact ⟨Memory.read_write_other _ v (outside s.SP), pushWord_read_other s w (outside s.SP) (outside _)⟩

/-- Settles O9: the pull reads the two addresses the push wrote, low byte first. -/
theorem pulledWordIsThePushedOne : Obligations.PulledWordIsThePushedOne := by
  intro s t w hsp hmem
  have low : t.SP + 1 = s.SP - 1 := by rw [hsp, pushWord_SP]; bv_omega
  have high : t.SP + 2 = s.SP := by rw [hsp, pushWord_SP]; bv_omega
  rw [pullWord_eq, low, high, hmem, pushWord_read_low, pushWord_read_high]
  exact ⟨wordOfBytes_bytes w, rfl⟩

end Sys2Proof.Machine
end

section
/-! SUPPORT. The encoding as a whole: each instruction has its row in the opcode table and each row has its instruction,
so decode and encode are inverse; from there what a step runs, where it faults, and a branch's offset byte (30_encoding.md
R90 to R102; 60_exceptions.md R261). -/

namespace Sys2Proof.Machine

/-! ### What the table and the formats give (R91, R97) -/

/-- The bytes that stand for an instruction: the opcode of a row of the table, and the operand as the row's shape says. -/
inductive TableEncoding : Instr → List Byte → Prop where
  | implied {op : Byte} {i : Instr} (row : decodeOpcode op = some (.implied i)) : TableEncoding i (enc1 op)
  | byte {op : Byte} {f : Byte → Instr} (row : decodeOpcode op = some (.byte f)) (b : Byte) :
    TableEncoding (f b) (enc2 op b)
  | word {op : Byte} {f : Word → Instr} (row : decodeOpcode op = some (.word f)) (w : Word) :
    TableEncoding (f w) (enc3 op w)

/-- Every instruction's encoding is made from a row: its opcode finds the shape of its operand. -/
theorem tableEncoding_encode (i : Instr) : TableEncoding i (encode i) := by
  cases i with
  | tax | tay | txa | tya | tsx | txs | pha | php | pla | plp | inx | iny | dex | dey | clc | sec | cli | sei | clv
  | cld | sed | rts | nop => exact .implied rfl
  | ldaAbs w | ldaAbsX w | ldaAbsY w | ldxAbs w | ldxAbsY w | ldyAbs w | ldyAbsX w | staAbs w | staAbsX w | staAbsY w
  | stxAbs w | styAbs w | andAbs w | andAbsX w | andAbsY w | oraAbs w | oraAbsX w | oraAbsY w | eorAbs w | eorAbsX w
  | eorAbsY w | bitAbs w | incAbs w | incAbsX w | decAbs w | decAbsX w | adcAbs w | adcAbsX w | adcAbsY w | jmpAbs w
  | jmpInd w | jsr w => exact .word rfl w
  | _ b => exact .byte rfl b

/-- What encode makes of the instructions of a row with opcode `op`. -/
def EncodesWith (op : Byte) : Shape → Prop
  | .implied i => encode i = enc1 op
  | .byte f => ∀ b, encode (f b) = enc2 op b
  | .word f => ∀ w, encode (f w) = enc3 op w

/-- Every row of the table is the one encode uses for its instructions. -/
theorem encodesWith_of_mem_opcodeTable : ∀ r ∈ opcodeTable, EncodesWith r.opcode r.shape := by
  simp only [opcodeTable, rowsLoadStore1, rowsLoadStore2, rowsLogical1, rowsLogical2, rowsTransferStack, rowsIncDecAdc1,
    rowsIncDecAdc2, rowsFlagOps, rowsControlFlow, List.forall_mem_append, List.forall_mem_cons,
    List.not_mem_nil, false_implies, implies_true, and_true, EncodesWith]
  and_intros <;> intros <;> rfl

/-- A shape that is found belongs to a row with that opcode. -/
theorem mem_of_findRow {op : Byte} {sh : Shape} {rows : List Row} (h : findRow op rows = some sh) :
    ⟨op, sh⟩ ∈ rows := by
  induction rows with
  | nil => cases h
  | cons r rows ih =>
    unfold findRow at h
    split at h
    case isTrue hop => cases hop; cases h; exact List.mem_cons_self
    case isFalse => exact List.mem_cons_of_mem _ (ih h)

theorem encodesWith_of_decodeOpcode {op : Byte} {sh : Shape} (h : decodeOpcode op = some sh) : EncodesWith op sh :=
  encodesWith_of_mem_opcodeTable _ (mem_of_findRow h)

/-- An instruction has no other bytes than its encoding. -/
theorem TableEncoding.eq_encode {i : Instr} {bytes : List Byte} (h : TableEncoding i bytes) : bytes = encode i := by
  cases h with
  | implied row => exact (encodesWith_of_decodeOpcode row).symm
  | byte row b => exact (encodesWith_of_decodeOpcode row b).symm
  | word row w => exact (encodesWith_of_decodeOpcode row w).symm

/-! ### Decoding and encoding are inverse (R90 to R93) -/

theorem TableEncoding.decode_append {i : Instr} {bytes : List Byte} (h : TableEncoding i bytes) (rest : List Byte) :
    decode (bytes ++ rest) = .ok (i, rest) := by
  cases h with
  | implied row => exact decode_implied row rest
  | byte row b => exact decode_byte row b rest
  | word row w => simpa [enc3] using decode_word row (loByte w) (hiByte w) rest

/-- What decodes begins with the bytes of a row, and the rest is what stands behind them. -/
theorem tableEncoding_of_decode {bytes rest : List Byte} {i : Instr} (h : decode bytes = .ok (i, rest)) :
    ∃ enc, TableEncoding i enc ∧ bytes = enc ++ rest := by
  unfold decode at h
  split at h
  case h_1 => cases h
  case h_2 op tail =>
    split at h <;> cases h
    case h_2 row => exact ⟨_, .implied row, rfl⟩
    case h_3 b row => exact ⟨_, .byte row b, rfl⟩
    case h_4 lo hi row => exact ⟨_, .word row (wordOfBytes lo hi), by simp [enc3]⟩

theorem decode_encode (i : Instr) (rest : List Byte) : decode (encode i ++ rest) = .ok (i, rest) :=
  (tableEncoding_encode i).decode_append rest

theorem eq_encode_append_of_decode {bytes rest : List Byte} {i : Instr} (h : decode bytes = .ok (i, rest)) :
    bytes = encode i ++ rest := by
  obtain ⟨enc, henc, rfl⟩ := tableEncoding_of_decode h
  rw [henc.eq_encode]

/-- The mode fixes the format, and the format the length (R91). -/
theorem length_encode (i : Instr) : (encode i).length = i.mode.length := by
  cases i <;> rfl

/-- No instruction is longer than three bytes (R93). -/
theorem length_encode_le_three (i : Instr) : (encode i).length ≤ 3 := by
  rw [length_encode]
  cases i.mode <;> decide

/-! ### What a step runs (R126) -/

theorem step_eq_exec_of_decode {s : State} {i : Instr} {rest : List Byte} (h : decode (fetchWindow s) = .ok (i, rest)) :
    step s = exec i s := by
  rw [step, h]

theorem step_eq_fault_of_decodeOpcode {s : State} (h : decodeOpcode (s.mem.read s.PC) = none) :
    step s = .fault (.unknownOpcode (s.mem.read s.PC) s.PC) := by
  rw [step, fetchWindow, decode_unknown h, raiseUnknownOpcode]

/-- Byte k of the window stands at PC +16 k. -/
theorem getElem_fetchWindow (s : State) (k : Nat) (hk : k < (fetchWindow s).length) :
    (fetchWindow s)[k] = s.mem.read (s.PC + BitVec.ofNat 16 k) := by
  match k, hk with
  | 0, _ => simp [fetchWindow]
  | 1, _ => rfl
  | 2, _ => rfl

/-- An encoding that stands at PC begins the window. -/
theorem encode_isPrefix_fetchWindow {s : State} {i : Instr}
    (h : ∀ (k : Nat) (hk : k < (encode i).length), s.mem.read (s.PC + BitVec.ofNat 16 k) = (encode i)[k]) :
    encode i <+: fetchWindow s :=
  List.prefix_iff_getElem.mpr
    ⟨length_encode_le_three i, fun k hk => (h k hk).symm.trans (getElem_fetchWindow s k _).symm⟩

/-- Three bytes placed at PC are the window: their addresses differ, also past 0xFFFF. -/
theorem fetchWindow_writeBytes (s : State) (b0 b1 b2 : Byte) :
    fetchWindow { s with mem := s.mem.writeBytes s.PC [b0, b1, b2] } = [b0, b1, b2] := by
  have h01 : s.PC ≠ s.PC + 1 := word_ne_add_one _
  have h12 : s.PC + 1 ≠ s.PC + 2 := by bv_omega
  have h02 : s.PC ≠ s.PC + 2 := by bv_omega
  simp only [fetchWindow, Memory.writeBytes, pc_after_two, Memory.read_write, h01, h12, h02, if_true, if_false]

theorem fetchWindow_withFetchWord (s : State) (nbits w : Nat) :
    fetchWindow (s.withFetchWord nbits w) = tableBytes nbits w :=
  fetchWindow_writeBytes s _ _ _

theorem decode_tableBytes_of_decodeTableWord {nbits w : Nat} {i : Instr} (h : decodeTableWord nbits w = some i) :
    ∃ rest, decode (tableBytes nbits w) = .ok (i, rest) := by
  unfold decodeTableWord at h
  split at h
  case h_1 rest hdecode => cases h; exact ⟨rest, hdecode⟩
  case h_2 => cases h

/-! ### The unrecognized bytes (R99) -/

/-- A list of bytes as a set in one number: bit `b` is set when `b` is listed. Two such sets are compared by one bitwise
operation, where a search of the lists for each of the 256 bytes is slow to check. -/
def bitSet : List Byte → Nat
  | [] => 0
  | b :: bs => 2 ^ b.toNat ||| bitSet bs

theorem testBit_bitSet (bs : List Byte) (b : Byte) : (bitSet bs).testBit b.toNat = decide (b ∈ bs) := by
  induction bs with
  | nil => simp [bitSet]
  | cons c bs ih => simp [bitSet, ih, Nat.testBit_two_pow, BitVec.toNat_inj, eq_comm]

theorem bitSet_append (bs cs : List Byte) : bitSet (bs ++ cs) = bitSet bs ||| bitSet cs := by
  induction bs with
  | nil => simp [bitSet]
  | cons b bs ih => simp [bitSet, ih, Nat.or_assoc]

/-- Each of the 256 bytes is in exactly one of the lists of R99 and R97. -/
theorem bitSet_unrecognized_xor_opcodes :
    bitSet Claim.unrecognized ^^^ bitSet (opcodeTable.map Row.opcode) = 2 ^ 256 - 1 := by
  simp only [Claim.unrecognized, opcodeTable, List.map_append, bitSet_append]
  decide

theorem mem_unrecognized_iff (b : Byte) : b ∈ Claim.unrecognized ↔ b ∉ opcodeTable.map Row.opcode := by
  have h := congrArg (Nat.testBit · b.toNat) bitSet_unrecognized_xor_opcodes
  simp only [Nat.testBit_xor, testBit_bitSet, Nat.testBit_two_pow_sub_one, b.isLt, decide_true] at h
  by_cases hb : b ∈ Claim.unrecognized <;> simpa [hb] using h

theorem findRow_eq_none_iff (op : Byte) (rows : List Row) : findRow op rows = none ↔ op ∉ rows.map Row.opcode := by
  induction rows with
  | nil => simp [findRow]
  | cons r rows ih =>
    rw [findRow, List.map_cons, List.mem_cons, not_or, ← ih]
    split
    case isTrue hop => simp [hop]
    case isFalse hop => simp [Ne.symm hop]

theorem decodeOpcode_eq_none_iff (b : Byte) : decodeOpcode b = none ↔ b ∈ Claim.unrecognized :=
  (findRow_eq_none_iff b opcodeTable).trans (mem_unrecognized_iff b).symm

/-! ### Branch offsets (R101, R240; log 10) -/

/-- Widening by the sign bit keeps the signed value. -/
theorem toInt_sext16 (b : Byte) : (sext16 b).toInt = b.toInt := BitVec.toInt_signExtend_of_le (by decide)

/-- The low byte keeps the signed value modulo 256. -/
theorem toInt_loByte (w : Word) : (loByte w).toInt = w.toInt.bmod (2 ^ 8) := by
  rw [loByte, BitVec.toInt_extractLsb', Nat.shiftRight_zero, BitVec.toInt_eq_toNat_bmod w,
    Int.bmod_bmod_of_dvd (by decide)]

theorem loByte_sext16 (b : Byte) : loByte (sext16 b) = b :=
  BitVec.eq_of_toInt_eq (by rw [toInt_loByte, toInt_sext16, BitVec.toInt_bmod_cancel])

/-- A word in the range of a signed byte is its low byte, widened. -/
theorem sext16_loByte {w : Word} (hlo : -128 ≤ w.toInt) (hhi : w.toInt ≤ 127) : sext16 (loByte w) = w :=
  BitVec.eq_of_toInt_eq (by
    rw [toInt_sext16, toInt_loByte]
    exact Int.bmod_eq_of_le hlo (by omega))

/-- A word is a widened byte exactly when its signed value is a byte's, and then its low byte is that byte. -/
theorem sext16_eq_iff (b : Byte) (w : Word) :
    sext16 b = w ↔ (-128 ≤ w.toInt ∧ w.toInt ≤ 127) ∧ loByte w = b := by
  constructor
  · rintro rfl
    have hlo : -128 ≤ b.toInt := BitVec.le_toInt b
    have hhi : b.toInt < 128 := BitVec.toInt_lt
    rw [toInt_sext16, loByte_sext16]
    exact ⟨⟨hlo, by omega⟩, rfl⟩
  · rintro ⟨⟨hlo, hhi⟩, rfl⟩
    exact sext16_loByte hlo hhi

theorem branchTargetWf_iff (branch target : Word) :
    branchTargetWf branch target = true ↔
      -128 ≤ (target - (branch + 2)).toInt ∧ (target - (branch + 2)).toInt ≤ 127 := by
  simp [branchTargetWf, branchDistance]

theorem assembleBranch_eq_some_iff (branch target : Word) (off : Byte) :
    assembleBranch branch target = some off ↔ sext16 off = target - (branch + 2) := by
  rw [sext16_eq_iff, ← branchTargetWf_iff, assembleBranch]
  simp

theorem assembleBranch_eq_none_iff (branch target : Word) :
    assembleBranch branch target = none ↔
      (target - (branch + 2)).toInt < -128 ∨ 127 < (target - (branch + 2)).toInt := by
  have : assembleBranch branch target = none ↔ ¬ branchTargetWf branch target = true := by simp [assembleBranch]
  rw [this, branchTargetWf_iff]
  omega

/-! ### The obligations -/

/-- Settles O51: every instruction has its row in the table. -/
theorem decodeOfEncode : Obligations.DecodeOfEncode :=
  decode_encode

/-- Settles O52: what decodes comes from a row of the table, and every row is encode's. -/
theorem encodeOfDecode : Obligations.EncodeOfDecode :=
  fun _ _ i h => ⟨eq_encode_append_of_decode h, length_encode i⟩

/-- Settles O32: the distance has an offset byte exactly when it is a widened byte. -/
theorem branchOperandEncodesItsTarget : Obligations.BranchOperandEncodesItsTarget := by
  refine fun branch target => ⟨fun off => ?_, assembleBranch_eq_none_iff branch target⟩
  rw [assembleBranch_eq_some_iff, eq_sub_iff_add_eq', sext16]

/-- Settles O45: the encoding begins the window that the step decodes. -/
theorem stepRunsTheEncodingAtPc : Obligations.StepRunsTheEncodingAtPc := by
  intro s i h
  obtain ⟨rest, hwindow⟩ := encode_isPrefix_fetchWindow h
  exact step_eq_exec_of_decode (hwindow ▸ decode_encode i rest)

/-- Settles O46: a step ends in a next state on an opcode of the table, and in the fault on the other bytes. -/
theorem stepFaultsExactlyOnUnrecognizedBytes : Obligations.StepFaultsExactlyOnUnrecognizedBytes := by
  intro s
  rw [← decodeOpcode_eq_none_iff]
  refine ⟨step_eq_fault_of_decodeOpcode, fun hknown => ?_⟩
  obtain ⟨_, _, t, _, _, hnext⟩ | ⟨hnone, _⟩ := step_cases s
  · exact ⟨t, hnext⟩
  · exact absurd hnone hknown

/-- Settles O50: the placed word's bytes are the window that the step decodes. -/
theorem stepRunsThePlacedTableWord : Obligations.StepRunsThePlacedTableWord := by
  intro s nbits w i h
  obtain ⟨rest, hdecode⟩ := decode_tableBytes_of_decodeTableWord h
  exact step_eq_exec_of_decode ((fetchWindow_withFetchWord s nbits w).symm ▸ hdecode)

/-- Settles O53: each word is its instruction's encoding. -/
theorem specWordsDecode : Obligations.SpecWordsDecode :=
  ⟨decode_encode (.ldaAbsX 0x10FF) [], decode_encode (.stxZpY 0x80) [], decode_encode (.andImm 0x1F) [],
    decode_encode .txs [], decode_encode (.adcIndY 0x40) [], decode_encode .sed [], decode_encode (.bne 0xFB) [],
    decode_encode (.jmpInd 0x10FF) []⟩

end Sys2Proof.Machine
end

section
/-! SUPPORT. What page crossing means in bits (R141), what every instruction and every step costs (R125, R129), and the
execute call without the bound on its passes (40_fetch_and_addressing.md R126 to R128). -/

namespace Sys2Proof.Machine

/-! ### Page crossing (R141) -/

theorem crossed_eq_decide (a b : Word) : crossed a b = decide (hiByte a ≠ hiByte b) :=
  Bool.eq_iff_iff.mpr (by simp [crossed])

theorem toNat_hiByte (a : Word) : (hiByte a).toNat = a.toNat / 256 := by
  have := a.isLt
  rw [hiByte, BitVec.extractLsb'_toNat, Nat.shiftRight_eq_div_pow]
  omega

/-- Bit 8 is the parity of the high byte. -/
theorem getLsbD_eight (a : Word) : a.getLsbD 8 = decide ((hiByte a).toNat % 2 = 1) := by
  rw [← Nat.testBit_zero, ← BitVec.getLsbD, hiByte]
  simp

/-- Adding less than a page, or taking off a page at most, moves the high byte by at most one. -/
theorem hiByte_add_of_near (a : Word) {d : Word} (h : d.toNat < 0x100 ∨ 0xFF00 ≤ d.toNat) :
    hiByte (a + d) = hiByte a ∨ hiByte (a + d) = hiByte a + 1 ∨ hiByte (a + d) = hiByte a - 1 := by
  have := a.isLt
  have := d.isLt
  have high := toNat_hiByte a
  have sum := toNat_hiByte (a + d)
  rw [BitVec.toNat_add] at sum
  bv_omega

/-- So a page is crossed exactly when the high byte's parity flips, which is bit 8. -/
theorem crossed_add_of_near (a : Word) {d : Word} (h : d.toNat < 0x100 ∨ 0xFF00 ≤ d.toNat) :
    crossed a (a + d) = decide (a.getLsbD 8 ≠ (a + d).getLsbD 8) := by
  rw [crossed_eq_decide, getLsbD_eight, getLsbD_eight]
  simp only [ne_eq, decide_eq_decide]
  rcases hiByte_add_of_near a h with same | up | down
  · simp [same]
  · rw [up]; bv_omega
  · rw [down]; bv_omega

theorem toNat_zext16_lt (b : Byte) : (zext16 b).toNat < 0x100 := by
  rw [zext16, BitVec.toNat_setWidth]
  omega

theorem toNat_sext16_near (b : Byte) : (sext16 b).toNat < 0x100 ∨ 0xFF00 ≤ (sext16 b).toNat := by
  have := b.isLt
  rw [sext16, BitVec.toNat_signExtend, BitVec.toNat_setWidth]
  split <;> omega

/-! ### What an instruction costs (R125, R129) -/

/-- A page cross adds a cycle or none (R134, R138, R140). -/
theorem add_crossCycles_bounds (n : Int) (a b : Word) : n ≤ n + crossCycles a b ∧ n + crossCycles a b ≤ n + 1 := by
  unfold crossCycles
  split <;> omega

/-- The cycles charged are from 2 to 7 (R129). -/
def CostsTwoToSeven (s t : State) : Prop := 2 ≤ s.budget - t.budget ∧ s.budget - t.budget ≤ 7

theorem costsTwoToSeven_of_eq {s t : State} {c : Int} (h : t.budget = s.budget - c) (lo : 2 ≤ c) (hi : c ≤ 7) :
    CostsTwoToSeven s t := by
  rw [CostsTwoToSeven, h]
  omega

/-- A read whose page cross costs a cycle: 4 cycles in absolute indexed (R134), 5 in (indirect),Y (R138). -/
theorem costsTwoToSeven_of_crossing {s t : State} {n : Int} {a b : Word}
    (h : t.budget = s.budget - (n + crossCycles a b)) (lo : 2 ≤ n) (hi : n ≤ 6) : CostsTwoToSeven s t := by
  have := add_crossCycles_bounds n a b
  exact costsTwoToSeven_of_eq h (by omega) (by omega)

/-- A branch costs 2 cycles, or 3 and the page cross when taken (R140). -/
theorem branched_costsTwoToSeven (s : State) (f : Flag) (want : Bool) (off : Byte) :
    CostsTwoToSeven s (branched s f want off) := by
  by_cases taken : getFlag s.P f = want
  · exact costsTwoToSeven_of_crossing (congrArg (s.budget - ·) (if_pos taken)) (by decide) (by decide)
  · exact costsTwoToSeven_of_eq (congrArg (s.budget - ·) (if_neg taken)) (by decide) (by decide)

theorem effect_costsTwoToSeven (i : Instr) (s : State) : CostsTwoToSeven s (effect i s) := by
  cases i with
  | ldaAbsX | ldaAbsY | ldaIndY | ldxAbsY | ldyAbsX | andAbsX | andAbsY | andIndY | oraAbsX | oraAbsY | oraIndY
  | eorAbsX | eorAbsY | eorIndY | adcAbsX | adcAbsY | adcIndY =>
    exact costsTwoToSeven_of_crossing rfl (by decide) (by decide)
  | bpl | bmi | bvc | bvs | bcc | bcs | bne | beq => exact branched_costsTwoToSeven s _ _ _
  | _ => exact costsTwoToSeven_of_eq rfl (by decide) (by decide)

theorem step_costsTwoToSeven {s t : State} (h : step s = .next t) : CostsTwoToSeven s t := by
  obtain ⟨i, hi⟩ := step_next_inv h
  rw [eq_effect_of_exec hi]
  exact effect_costsTwoToSeven i s

theorem step_withBudget_cost {s t : State} {b : Int} (h : step { s with budget := b } = .next t) :
    2 ≤ b - t.budget ∧ b - t.budget ≤ 7 :=
  step_costsTwoToSeven h

/-! ### The loop, pass by pass (R126) -/

section loop

variable (passes : Nat) (given : Int) {s t : State} {f : Fault}

/-- With its budget used up the loop ends, however many passes are left. -/
theorem executeLoop_of_spent (h : s.budget ≤ 0) :
    executeLoop passes given s = .done (betweenCalls s) (given - s.budget) := by
  cases passes with
  | zero => rfl
  | succ passes => exact if_pos h

theorem executeLoop_succ_of_next (h : 0 < s.budget) (hs : step s = .next t) :
    executeLoop (passes + 1) given s = executeLoop passes given t := by
  rw [executeLoop, if_neg h.not_ge, hs]

theorem executeLoop_succ_of_fault (h : 0 < s.budget) (hs : step s = .fault f) :
    executeLoop (passes + 1) given s = .fault f (betweenCalls s) (given - s.budget) := by
  rw [executeLoop, if_neg h.not_ge, hs]

end loop

/-- The three ways through one pass of the loop: no step refuses. -/
theorem pass_cases (s : State) :
    s.budget ≤ 0 ∨ (0 < s.budget ∧ ∃ t, step s = .next t) ∨ (0 < s.budget ∧ ∃ f, step s = .fault f) := by
  rcases le_or_gt s.budget 0 with spent | left
  · exact .inl spent
  · rcases step_cases s with ⟨_, _, t, _, _, hs⟩ | ⟨_, hs⟩
    · exact .inr (.inl ⟨left, t, hs⟩)
    · exact .inr (.inr ⟨left, _, hs⟩)

/-- Bounds of at least the budget are never reached, so all give the same call: every pass uses up a cycle at least (log 8). -/
theorem executeLoop_passes_irrelevant (given : Int) {m n : Nat} {s : State} (hm : s.budget ≤ m) (hn : s.budget ≤ n) :
    executeLoop m given s = executeLoop n given s := by
  induction m generalizing n s with
  | zero => rw [executeLoop_of_spent _ _ hm, executeLoop_of_spent _ _ hm]
  | succ m ih =>
    cases n with
    | zero => rw [executeLoop_of_spent _ _ hn, executeLoop_of_spent _ _ hn]
    | succ n =>
      rcases pass_cases s with spent | ⟨left, t, hs⟩ | ⟨left, f, hs⟩
      · rw [executeLoop_of_spent _ _ spent, executeLoop_of_spent _ _ spent]
      · obtain ⟨cost, -⟩ := step_costsTwoToSeven hs
        rw [executeLoop_succ_of_next _ _ left hs, executeLoop_succ_of_next _ _ left hs]
        exact ih (by omega) (by omega)
      · rw [executeLoop_succ_of_fault _ _ left hs, executeLoop_succ_of_fault _ _ left hs]

/-- The cycles given only count in the total (R128). -/
theorem executeLoop_add_given (passes : Nat) (n given : Int) (s : State) :
    executeLoop passes (n + given) s = Claim.plusConsumed n (executeLoop passes given s) := by
  induction passes generalizing s with
  | zero => simp only [executeLoop, Claim.plusConsumed, add_sub_assoc]
  | succ passes ih =>
    rcases pass_cases s with spent | ⟨left, t, hs⟩ | ⟨left, f, hs⟩
    · rw [executeLoop_of_spent _ _ spent, executeLoop_of_spent _ _ spent, Claim.plusConsumed, add_sub_assoc]
    · rw [executeLoop_succ_of_next _ _ left hs, executeLoop_succ_of_next _ _ left hs, ih]
    · rw [executeLoop_succ_of_fault _ _ left hs, executeLoop_succ_of_fault _ _ left hs, Claim.plusConsumed,
        add_sub_assoc]

/-! ### The call, without the bound (R126 to R128) -/

section call

variable {b : Int} {s t : State} {f : Fault}

theorem execute_of_nonpos (h : b ≤ 0) : execute b s = .done (betweenCalls s) 0 := by
  rw [execute, executeLoop_of_spent _ _ h, sub_self]; rfl

theorem execute_of_next (h : 0 < b) (hs : step { s with budget := b } = .next t) :
    execute b s = Claim.plusConsumed (b - t.budget) (execute t.budget t) := by
  obtain ⟨passes, hp⟩ : ∃ k, b.toNat = k + 1 := ⟨b.toNat - 1, by omega⟩
  have bound : t.budget ≤ passes := by
    obtain ⟨cost, -⟩ := step_withBudget_cost hs
    omega
  calc execute b s
    _ = executeLoop passes b t := by rw [execute, hp]; exact executeLoop_succ_of_next _ _ h hs
    _ = executeLoop t.budget.toNat (b - t.budget + t.budget) t := by
      rw [sub_add_cancel]; exact executeLoop_passes_irrelevant b bound (Int.self_le_toNat _)
    _ = Claim.plusConsumed (b - t.budget) (execute t.budget t) := executeLoop_add_given _ _ _ _

theorem execute_of_fault (h : 0 < b) (hs : step { s with budget := b } = .fault f) :
    execute b s = .fault f (betweenCalls s) 0 := by
  obtain ⟨passes, hp⟩ : ∃ k, b.toNat = k + 1 := ⟨b.toNat - 1, by omega⟩
  rw [execute, hp, executeLoop_succ_of_fault _ _ h hs, sub_self]; rfl

end call

/-- Induction along a call: it ends with its budget used up or at a fault, or goes on from what a step leaves. -/
theorem execute_induction {motive : Int → State → Prop} (spent : ∀ b s, b ≤ 0 → motive b s)
    (fault : ∀ b s f, 0 < b → step { s with budget := b } = .fault f → motive b s)
    (next : ∀ b s t, 0 < b → step { s with budget := b } = .next t → motive t.budget t → motive b s)
    (b : Int) (s : State) : motive b s := by
  rcases pass_cases { s with budget := b } with (hb : b ≤ 0) | ⟨(hb : 0 < b), t, hs⟩ | ⟨(hb : 0 < b), f, hs⟩
  · exact spent b s hb
  · have shrinks : t.budget.toNat < b.toNat := by
      obtain ⟨cost, -⟩ := step_withBudget_cost hs
      omega
    exact next b s t hb hs (execute_induction spent fault next t.budget t)
  · exact fault b s f hb hs
termination_by b.toNat

theorem plusConsumed_eq_done {n c : Int} {r : Result} {t : State} (h : Claim.plusConsumed n r = .done t c) :
    ∃ c', r = .done t c' ∧ c = n + c' := by
  cases r <;> cases h
  exact ⟨_, rfl, rfl⟩

/-- A call that ends by its budget consumed it, and at most 6 cycles more: before its last step a cycle at least was left,
and that step cost at most 7. -/
theorem execute_done_consumed {b : Int} {s t : State} {c : Int} (hb : 0 < b) (h : execute b s = .done t c) :
    b ≤ c ∧ c ≤ b + 6 := by
  induction b, s using execute_induction generalizing c with
  | spent b s hle => omega
  | fault b s f _ hs => rw [execute_of_fault hb hs] at h; cases h
  | next b s u _ hs ih =>
    obtain ⟨-, cost⟩ := step_withBudget_cost hs
    rw [execute_of_next hb hs] at h
    obtain ⟨c', hc', rfl⟩ := plusConsumed_eq_done h
    rcases le_or_gt u.budget 0 with spent | left
    · rw [execute_of_nonpos spent] at hc'
      cases hc'
      omega
    · have := ih left hc'
      omega

/-! ### The obligations -/

/-- Settles O11: a byte, widened with zeros or with its sign, is less than a page either way. -/
theorem pageCrossIsBitEight : Obligations.PageCrossIsBitEight :=
  ⟨crossed_eq_decide, fun a b =>
    ⟨crossed_add_of_near a (.inl (toNat_zext16_lt b)), crossed_add_of_near a (toNat_sext16_near b)⟩⟩

/-- Settles O43, from the closed form of each instruction. -/
theorem everyInstructionCostsTwoToSeven : Obligations.EveryInstructionCostsTwoToSeven :=
  fun i s => ⟨_, exec_eq_effect s i, effect_costsTwoToSeven i s⟩

/-- Settles O44: the bytes the decoder reads are the step's window. -/
theorem stepRunsTheDecodedInstruction : Obligations.StepRunsTheDecodedInstruction :=
  fun _ _ _ h => step_eq_exec_of_decode h

/-- Settles O54: the bound on the passes is never reached, and the cycles given only shift the count. -/
theorem executeFollowsItsLoop : Obligations.ExecuteFollowsItsLoop :=
  fun _ _ => ⟨execute_of_nonpos, fun hb _ => execute_of_next hb, fun hb _ => execute_of_fault hb⟩

/-- Settles O55, by induction along the call. -/
theorem executeConsumesItsBudget : Obligations.ExecuteConsumesItsBudget :=
  fun _ _ _ _ hb h => execute_done_consumed hb h

end Sys2Proof.Machine
end

section
/-! SUPPORT. The claims' own words for encodings, addresses, cycles and results, met by `encode` and by the closed forms
of `effect`; from there what every load and every store does (41_load_store.md R160 to R165). -/

namespace Sys2Proof.Machine

/-! ### Encodings (R91) -/

theorem enc2_of_encode {op b : Byte} {i : Instr} (h : encode i = enc2 op b) : Claim.Enc2 op b i :=
  (congrArg decode h).symm.trans (List.append_nil (encode i) ▸ decode_encode i [])

theorem enc3_of_encode {op : Byte} {w : Word} {i : Instr} (h : encode i = enc3 op w) : Claim.Enc3 op w i :=
  (congrArg decode h).symm.trans (List.append_nil (encode i) ▸ decode_encode i [])

/-! ### Cycles, flags and memory (R141, R38, R62) -/

/-- The claims' page-cross cycle is the model's (R141). -/
theorem crossCost_eq_crossCycles (a b : Word) : Claim.crossCost a b = crossCycles a b := by
  rw [crossCycles, crossed_eq_decide]
  by_cases h : hiByte a = hiByte b
  · rw [decide_eq_false (not_not_intro h)]; exact if_pos h
  · rw [decide_eq_true h]; exact if_neg h

theorem assignsZN_assignZN (p v : Byte) : Claim.AssignsZN p (assignZN p v) v :=
  ⟨getLsbD_assignZN p v 1, getLsbD_assignZN p v 7,
    fun k hz hn => by rw [getLsbD_assignZN, if_neg hn, if_neg hz]⟩

theorem writesByte_write (m : Memory) (a : Word) (v : Byte) : Claim.WritesByte m (m.write a v) a v :=
  fun x => Memory.read_write m a x v

/-! ### Loads and stores from the closed forms (R160 to R165) -/

section forms

variable {i : Instr} {s : State} {a len : Word} {v : Byte} {cycles : Int}

theorem loadsA_of_effect (h : effect i s = withA s v len cycles) : Claim.LoadsA i s v len cycles :=
  ⟨_, assignsZN_assignZN s.P v, (exec_eq_effect s i).trans (congrArg _ h)⟩

theorem loadsX_of_effect (h : effect i s = withX s v len cycles) : Claim.LoadsX i s v len cycles :=
  ⟨_, assignsZN_assignZN s.P v, (exec_eq_effect s i).trans (congrArg _ h)⟩

theorem loadsY_of_effect (h : effect i s = withY s v len cycles) : Claim.LoadsY i s v len cycles :=
  ⟨_, assignsZN_assignZN s.P v, (exec_eq_effect s i).trans (congrArg _ h)⟩

theorem storesAt_of_effect (h : effect i s = stored s a v len cycles) : Claim.StoresAt i s a v len cycles :=
  ⟨_, writesByte_write s.mem a v, (exec_eq_effect s i).trans (congrArg _ h)⟩

end forms

/-! ### The obligations

In each form the closed form of `effect` already is the claimed load or store: the claims' addresses are the model's by
definition, and only the page-cross cycle has to be rewritten. -/

/-- Settles O12, form by form in the order of R160. -/
theorem ldaLoads : Obligations.LdaLoads := by
  intro s b w
  simp only [crossCost_eq_crossCycles]
  exact ⟨⟨enc2_of_encode rfl, loadsA_of_effect rfl⟩, ⟨enc2_of_encode rfl, loadsA_of_effect rfl⟩,
    ⟨enc2_of_encode rfl, loadsA_of_effect rfl⟩, ⟨enc3_of_encode rfl, loadsA_of_effect rfl⟩,
    ⟨enc3_of_encode rfl, loadsA_of_effect rfl⟩, ⟨enc3_of_encode rfl, loadsA_of_effect rfl⟩,
    ⟨enc2_of_encode rfl, loadsA_of_effect rfl⟩, ⟨enc2_of_encode rfl, loadsA_of_effect rfl⟩⟩

/-- Settles O13, form by form in the order of R161. -/
theorem ldxLoads : Obligations.LdxLoads := by
  intro s b w
  simp only [crossCost_eq_crossCycles]
  exact ⟨⟨enc2_of_encode rfl, loadsX_of_effect rfl⟩, ⟨enc2_of_encode rfl, loadsX_of_effect rfl⟩,
    ⟨enc2_of_encode rfl, loadsX_of_effect rfl⟩, ⟨enc3_of_encode rfl, loadsX_of_effect rfl⟩,
    ⟨enc3_of_encode rfl, loadsX_of_effect rfl⟩⟩

/-- Settles O14, form by form in the order of R162. -/
theorem ldyLoads : Obligations.LdyLoads := by
  intro s b w
  simp only [crossCost_eq_crossCycles]
  exact ⟨⟨enc2_of_encode rfl, loadsY_of_effect rfl⟩, ⟨enc2_of_encode rfl, loadsY_of_effect rfl⟩,
    ⟨enc2_of_encode rfl, loadsY_of_effect rfl⟩, ⟨enc3_of_encode rfl, loadsY_of_effect rfl⟩,
    ⟨enc3_of_encode rfl, loadsY_of_effect rfl⟩⟩

/-- Settles O15: the store modes of R135 and R139 charge the index cycle, so no page cross stands in any form. -/
theorem staStores : Obligations.StaStores := fun _ _ _ =>
  ⟨⟨enc2_of_encode rfl, storesAt_of_effect rfl⟩, ⟨enc2_of_encode rfl, storesAt_of_effect rfl⟩,
    ⟨enc3_of_encode rfl, storesAt_of_effect rfl⟩, ⟨enc3_of_encode rfl, storesAt_of_effect rfl⟩,
    ⟨enc3_of_encode rfl, storesAt_of_effect rfl⟩, ⟨enc2_of_encode rfl, storesAt_of_effect rfl⟩,
    ⟨enc2_of_encode rfl, storesAt_of_effect rfl⟩⟩

/-- Settles O16, form by form in the order of R164. -/
theorem stxStores : Obligations.StxStores := fun _ _ _ =>
  ⟨⟨enc2_of_encode rfl, storesAt_of_effect rfl⟩, ⟨enc2_of_encode rfl, storesAt_of_effect rfl⟩,
    ⟨enc3_of_encode rfl, storesAt_of_effect rfl⟩⟩

/-- Settles O17, form by form in the order of R165. -/
theorem styStores : Obligations.StyStores := fun _ _ _ =>
  ⟨⟨enc2_of_encode rfl, storesAt_of_effect rfl⟩, ⟨enc2_of_encode rfl, storesAt_of_effect rfl⟩,
    ⟨enc3_of_encode rfl, storesAt_of_effect rfl⟩⟩

end Sys2Proof.Machine
end

section
/-! SUPPORT. The eight read forms of a mnemonic taken together, from their encodings and closed forms; from there what
AND, ORA, EOR and BIT do (42_logical.md R180 to R183). -/

namespace Sys2Proof.Machine

/-! ### The eight read forms (R130 to R134, R137, R138) -/

/-- The closed forms of the eight read forms, in the order of `Claim.EightReadForms`: what `leave` makes of the operand,
the length and the cycles of each mode. -/
def readFormEffects (leave : State → Byte → Word → Int → State) (s : State) (b : Byte) (w : Word) : List State :=
  [leave s b 2 2,
   leave s (s.mem.read (zext16 b)) 2 3,
   leave s (s.mem.read (zext16 (b + s.X))) 2 4,
   leave s (s.mem.read w) 3 4,
   leave s (s.mem.read (w + zext16 s.X)) 3 (4 + crossCycles w (w + zext16 s.X)),
   leave s (s.mem.read (w + zext16 s.Y)) 3 (4 + crossCycles w (w + zext16 s.Y)),
   leave s (s.mem.read (s.mem.readWord (zext16 (b + s.X)))) 2 6,
   leave s (s.mem.read (s.mem.readWord (zext16 b) + zext16 s.Y)) 2
     (5 + crossCycles (s.mem.readWord (zext16 b)) (s.mem.readWord (zext16 b) + zext16 s.Y))]

section forms

variable {imm zpg zpgX indX indY : Byte × (Byte → Instr)} {abs absX absY : Byte × (Word → Instr)}
  {leave : State → Byte → Word → Int → State} {Good : Instr → State → Byte → Word → Int → Prop}

/-- Eight opcodes are a mnemonic's read forms when the table has them and each one's closed form is the mode's. -/
theorem eightReadForms_of_effect
    (hgood : ∀ {i s m len cycles}, effect i s = leave s m len cycles → Good i s m len cycles)
    (hencode : ∀ b w,
      [imm.2 b, zpg.2 b, zpgX.2 b, abs.2 w, absX.2 w, absY.2 w, indX.2 b, indY.2 b].map encode =
        [enc2 imm.1 b, enc2 zpg.1 b, enc2 zpgX.1 b, enc3 abs.1 w, enc3 absX.1 w, enc3 absY.1 w, enc2 indX.1 b,
          enc2 indY.1 b])
    (heffect : ∀ s b w,
      [imm.2 b, zpg.2 b, zpgX.2 b, abs.2 w, absX.2 w, absY.2 w, indX.2 b, indY.2 b].map (effect · s) =
        readFormEffects leave s b w) :
    Claim.EightReadForms imm zpg zpgX abs absX absY indX indY Good := by
  intro s b w
  simp only [crossCost_eq_crossCycles]
  have hencode := hencode b w
  have heffect := heffect s b w
  simp only [readFormEffects, List.map_cons, List.cons.injEq] at hencode heffect
  obtain ⟨nImm, nZp, nZpX, nAbs, nAbsX, nAbsY, nIndX, nIndY, -⟩ := hencode
  obtain ⟨fImm, fZp, fZpX, fAbs, fAbsX, fAbsY, fIndX, fIndY, -⟩ := heffect
  exact ⟨⟨enc2_of_encode nImm, hgood fImm⟩, ⟨enc2_of_encode nZp, hgood fZp⟩, ⟨enc2_of_encode nZpX, hgood fZpX⟩,
    ⟨enc3_of_encode nAbs, hgood fAbs⟩, ⟨enc3_of_encode nAbsX, hgood fAbsX⟩, ⟨enc3_of_encode nAbsY, hgood fAbsY⟩,
    ⟨enc2_of_encode nIndX, hgood fIndX⟩, ⟨enc2_of_encode nIndY, hgood fIndY⟩⟩

end forms

/-! ### Bit test (R183) -/

/-- The P of a bit test, bit by bit: V, N and Z are different bits, so none of the writes undoes another. -/
theorem getLsbD_tested (s : State) (m : Byte) (len : Word) (cycles : Int) (k : Nat) :
    (tested s m len cycles).P.getLsbD k =
      if k = 6 then m.getLsbD 6 else if k = 7 then m.getLsbD 7
      else if k = 1 then decide (s.A &&& m = 0x00#8) else s.P.getLsbD k := by
  rw [tested, getLsbD_setFlag, getLsbD_setFlag, getLsbD_setFlag]
  rfl

theorem testsBits_of_effect {i : Instr} {s : State} {m : Byte} {len : Word} {cycles : Int}
    (h : effect i s = tested s m len cycles) : Claim.TestsBits i s m len cycles :=
  ⟨_, getLsbD_tested s m len cycles 1, getLsbD_tested s m len cycles 7, getLsbD_tested s m len cycles 6,
    fun k hz hn hv => by rw [getLsbD_tested, if_neg hv, if_neg hn, if_neg hz],
    (exec_eq_effect s i).trans (congrArg _ h)⟩

/-! ### The obligations -/

/-- Settles O18: A is the conjunction with the operand in all eight closed forms. -/
theorem andCombines : Obligations.AndCombines :=
  eightReadForms_of_effect (leave := fun s m => withA s (s.A &&& m)) loadsA_of_effect
    (fun _ _ => rfl) (fun _ _ _ => rfl)

/-- Settles O19: A is the disjunction with the operand in all eight closed forms. -/
theorem oraCombines : Obligations.OraCombines :=
  eightReadForms_of_effect (leave := fun s m => withA s (s.A ||| m)) loadsA_of_effect
    (fun _ _ => rfl) (fun _ _ _ => rfl)

/-- Settles O20: A is the exclusive or with the operand in all eight closed forms. -/
theorem eorCombines : Obligations.EorCombines :=
  eightReadForms_of_effect (leave := fun s m => withA s (s.A ^^^ m)) loadsA_of_effect
    (fun _ _ => rfl) (fun _ _ _ => rfl)

/-- Settles O21: both closed forms are the bit test of the byte read. -/
theorem bitTestsAgainstA : Obligations.BitTestsAgainstA := fun _ _ _ =>
  ⟨⟨enc2_of_encode rfl, testsBits_of_effect rfl⟩, ⟨enc3_of_encode rfl, testsBits_of_effect rfl⟩⟩

end Sys2Proof.Machine
end

section
/-! SUPPORT. What a push and a pull by PHA, PHP, PLA and PLP say in the claims' words, and that the copy of P a push makes
pulls back to P; from there the transfers and the stack instructions (43_transfer_stack.md R190 to R199). -/

namespace Sys2Proof.Machine

/-! ### One-byte encodings (R91) -/

theorem enc1_of_encode {op : Byte} {i : Instr} (h : encode i = enc1 op) : Claim.Enc1 op i :=
  (congrArg decode h).symm.trans (List.append_nil (encode i) ▸ decode_encode i [])

/-! ### The pushed copy of P (R197, R199) -/

/-- The pushed copy of P, bit by bit: bits 4 and 5 are 1, the rest are as in P. -/
theorem getLsbD_pushedP (p : Byte) {k : Nat} (hk : k < 8) :
    (pushedP p).getLsbD k = if k = 4 ∨ k = 5 then true else p.getLsbD k := by
  have hmask : ∀ k < 8, pushedMask.getLsbD k = decide (k = 4 ∨ k = 5) := by decide
  rw [pushedP, BitVec.getLsbD_or, hmask k hk]
  by_cases h : k = 4 ∨ k = 5 <;> simp [h]

/-- The two bits that a push forces are the two that a pull takes from the live P instead. -/
theorem pulledP_pushedP (p : Byte) : pulledP p (pushedP p) = p := by
  refine status_ext fun k hk => ?_
  rw [getLsbD_pulledP, getLsbD_pushedP p hk]
  by_cases forced : k = 4 ∨ k = 5
  · rw [if_pos forced]
  · rw [if_neg forced, if_neg forced]

/-! ### A pull behind a push (R70, R72) -/

theorem pushed_SP_add_one (s : State) (v : Byte) : (pushed s v).SP + 1 = s.SP :=
  sub_add_cancel s.SP 1

/-- The byte a pull reads behind a push is the pushed one, also where SP wraps. -/
theorem pushed_read_pulled (s : State) (v : Byte) :
    (pushed s v).mem.read (stackAddr ((pushed s v).SP + 1)) = v := by
  rw [pushed_SP_add_one]
  exact Memory.read_write_same s.mem _ v

/-- PLP behind PHP finds the pushed copy of P and leaves P as it was. -/
theorem effect_plp_php_P (s : State) : (effect .plp (effect .php s)).P = s.P :=
  calc (effect .plp (effect .php s)).P
    _ = pulledP s.P ((pushed s (pushedP s.P)).mem.read (stackAddr ((pushed s (pushedP s.P)).SP + 1))) := rfl
    _ = pulledP s.P (pushedP s.P) := by rw [pushed_read_pulled]
    _ = s.P := pulledP_pushedP s.P

/-- An instruction that pushes `v` writes it at the claims' stack byte, in 3 cycles. -/
theorem pushes_of_effect {i : Instr} {s : State} {v : Byte} (h : effect i s = pushed s v) :
    ∃ m, Claim.WritesByte s.mem m (Claim.stack s.SP) v ∧
      exec i s = .next { s with mem := m, SP := s.SP - 1, PC := s.PC + 1, budget := s.budget - 3 } :=
  ⟨_, writesByte_write s.mem (stackAddr s.SP) v, (exec_eq_effect s i).trans (congrArg _ h)⟩

/-! ### The obligations -/

/-- Settles O22: five closed forms are loads of the copied register, and that of TXS leaves P out. -/
theorem transfersCopy : Obligations.TransfersCopy := fun s =>
  ⟨⟨enc1_of_encode rfl, loadsX_of_effect rfl⟩, ⟨enc1_of_encode rfl, loadsY_of_effect rfl⟩,
    ⟨enc1_of_encode rfl, loadsA_of_effect rfl⟩, ⟨enc1_of_encode rfl, loadsA_of_effect rfl⟩,
    ⟨enc1_of_encode rfl, loadsX_of_effect rfl⟩, ⟨enc1_of_encode rfl, exec_eq_effect s .txs⟩⟩

/-- Settles O23: both closed forms are a push, of A and of the pushed copy of P. -/
theorem pushesStoreOnTheStack : Obligations.PushesStoreOnTheStack := fun _ =>
  ⟨⟨enc1_of_encode rfl, pushes_of_effect rfl⟩, ⟨enc1_of_encode rfl, pushes_of_effect rfl⟩⟩

/-- Settles O24: the byte at SP +8 1 goes into A with its flags, or into P under the masks of `pulledP`. -/
theorem pullsLoadFromTheStack : Obligations.PullsLoadFromTheStack := fun s =>
  ⟨⟨enc1_of_encode rfl, _, assignsZN_assignZN s.P _, exec_eq_effect s .pla⟩,
    ⟨enc1_of_encode rfl, exec_eq_effect s .plp⟩⟩

/-- Settles O25: the pull finds the pushed copy of P, from which it restores P. -/
theorem phpThenPlpRestoresStatus : Obligations.PhpThenPlpRestoresStatus := fun s =>
  ⟨_, _, exec_eq_effect s .php, exec_eq_effect _ .plp, effect_plp_php_P s, pushed_SP_add_one s _⟩

end Sys2Proof.Machine
end

section
/-! SUPPORT. The three results of `adc8` over the exact sum, and what a read-modify-write and an ADC say in the claims'
words; from there the increments, the decrements and ADC (44_incdec_adc.md R211 to R219). -/

namespace Sys2Proof.Machine

/-! ### Add with carry (R211, R219) -/

theorem getLsbD_seven (b : Byte) : b.getLsbD 7 = decide (128 ≤ b.toNat) :=
  (BitVec.msb_eq_getLsbD_last b).symm.trans (BitVec.msb_eq_decide b)

section adder

variable (a m : Byte) (cin : Bool)

theorem toNat_adcSum : (adcSum a m cin).toNat = (a.toNat + m.toNat + cin.toNat) % 256 :=
  BitVec.toNat_ofNat _ _

/-- The carry in can only carry out of the exact sum 255, the case of the second part. -/
theorem adcCarry_eq_decide : adcCarry a m cin = decide (256 ≤ a.toNat + m.toNat + cin.toNat) := by
  cases cin with
  | false => exact Bool.or_false _
  | true =>
    rw [adcCarry, Bool.true_and, ← Bool.decide_or, decide_eq_decide, Bool.toNat_true]
    omega

theorem adcOverflow_eq_decide (r : Byte) :
    adcOverflow a m r = decide (a.getLsbD 7 = m.getLsbD 7 ∧ r.getLsbD 7 ≠ a.getLsbD 7) := by
  rw [Bool.decide_and, decide_not]
  rfl

/-- Operands of different signs have a sum in range. Where their signs agree, the signed sum leaves the range exactly
when the wrapped byte shows the other sign. -/
theorem adcOverflow_adcSum_iff :
    adcOverflow a m (adcSum a m cin) = true ↔
      a.toInt + m.toInt + cin.toNat < -128 ∨ 127 < a.toInt + m.toInt + cin.toNat := by
  have sum := toNat_adcSum a m cin
  have carry := Bool.toNat_le cin
  have signedA := BitVec.toInt_eq_toNat_cond a
  have signedM := BitVec.toInt_eq_toNat_cond m
  rw [adcOverflow_eq_decide, decide_eq_true_iff]
  simp only [getLsbD_seven, ne_eq, decide_eq_decide]
  by_cases agree : 128 ≤ a.toNat ↔ 128 ≤ m.toNat
  · rw [and_iff_right agree]
    omega
  · rw [iff_false_left (fun h => agree h.1)]
    omega

end adder

/-- The P of an ADC, bit by bit: C, V, Z and N are different bits, so none of the writes undoes another. -/
theorem getLsbD_added (s : State) (m : Byte) (len : Word) (cycles : Int) (k : Nat) :
    (added s m len cycles).P.getLsbD k =
      if k = 7 then (adc8 s.A m (getFlag s.P .C)).r.getLsbD 7
      else if k = 1 then decide ((adc8 s.A m (getFlag s.P .C)).r = 0x00#8)
      else if k = 6 then (adc8 s.A m (getFlag s.P .C)).v
      else if k = 0 then (adc8 s.A m (getFlag s.P .C)).cout else s.P.getLsbD k := by
  rw [added, getLsbD_assignZN, getLsbD_setFlag, getLsbD_setFlag]
  rfl

/-! ### The claims from the closed forms (R212, R213, R218) -/

section forms

variable {i : Instr} {s : State} {a len : Word} {v m : Byte} {cycles : Int}

theorem modifiesAt_of_effect (h : effect i s = modified s a v len cycles) : Claim.ModifiesAt i s a v len cycles :=
  ⟨_, _, writesByte_write s.mem a v, assignsZN_assignZN s.P v, (exec_eq_effect s i).trans (congrArg _ h)⟩

theorem addsIntoA_of_effect (h : effect i s = added s m len cycles) : Claim.AddsIntoA i s m len cycles := by
  have bit := getLsbD_added s m len cycles
  refine ⟨_, _, rfl, (bit 0).trans (adcCarry_eq_decide _ _ _), (bit 6).trans (adcOverflow_eq_decide _ _ _),
    bit 1, bit 7, fun k hk => (bit k).trans ?_, (exec_eq_effect s i).trans (congrArg _ h)⟩
  simp only [List.mem_cons, List.not_mem_nil, or_false] at hk
  rw [if_neg (by omega), if_neg (by omega), if_neg (by omega), if_neg (by omega)]

end forms

/-! ### The obligations -/

/-- Settles O10, result by result of `adc8`. -/
theorem adcFlagsMeanCarryAndSignedOverflow : Obligations.AdcFlagsMeanCarryAndSignedOverflow := fun a m cin =>
  ⟨toNat_adcSum a m cin, adcCarry_eq_decide a m cin,
    Bool.eq_iff_iff.2 ((adcOverflow_adcSum_iff a m cin).trans decide_eq_true_iff.symm)⟩

/-- Settles O26: in each form the closed form writes the neighbour of the byte it read, with its flags. -/
theorem incDecModifyMemory : Obligations.IncDecModifyMemory := fun _ _ _ =>
  ⟨⟨enc2_of_encode rfl, modifiesAt_of_effect rfl⟩, ⟨enc2_of_encode rfl, modifiesAt_of_effect rfl⟩,
    ⟨enc3_of_encode rfl, modifiesAt_of_effect rfl⟩, ⟨enc3_of_encode rfl, modifiesAt_of_effect rfl⟩,
    ⟨enc2_of_encode rfl, modifiesAt_of_effect rfl⟩, ⟨enc2_of_encode rfl, modifiesAt_of_effect rfl⟩,
    ⟨enc3_of_encode rfl, modifiesAt_of_effect rfl⟩, ⟨enc3_of_encode rfl, modifiesAt_of_effect rfl⟩⟩

/-- Settles O27: each closed form loads the register with its own neighbour. -/
theorem indexRegistersStepByOne : Obligations.IndexRegistersStepByOne := fun _ =>
  ⟨⟨enc1_of_encode rfl, loadsX_of_effect rfl⟩, ⟨enc1_of_encode rfl, loadsY_of_effect rfl⟩,
    ⟨enc1_of_encode rfl, loadsX_of_effect rfl⟩, ⟨enc1_of_encode rfl, loadsY_of_effect rfl⟩⟩

/-- Settles O28: all eight closed forms are `added` of the mode's operand. -/
theorem adcAddsInBinary : Obligations.AdcAddsInBinary :=
  eightReadForms_of_effect (leave := added) addsIntoA_of_effect (fun _ _ => rfl) (fun _ _ _ => rfl)

end Sys2Proof.Machine
end

section
/-! SUPPORT. What an instruction that writes one flag says in the claims' words, and the seven that set or clear one
(45_flag_ops.md R230 to R236). -/

namespace Sys2Proof.Machine

/-! ### The claim from the closed form (R41) -/

/-- An instruction that writes the flag `f` writes its bit of P and no other. -/
theorem assignsFlag_of_effect {i : Instr} {s : State} {f : Flag} {v : Bool} (h : effect i s = flagged s f v) :
    Claim.AssignsFlag i s f.bit v := by
  have bit := getLsbD_setFlag s.P f v
  exact ⟨setFlag s.P f v, (bit f.bit).trans (if_pos rfl), fun j other => (bit j).trans (if_neg other),
    (exec_eq_effect s i).trans (congrArg _ h)⟩

/-! ### The obligations -/

/-- Settles O29: each of the seven closed forms writes the flag whose bit the claim names. -/
theorem flagInstructionsAssignOneBit : Obligations.FlagInstructionsAssignOneBit := fun _ =>
  ⟨⟨enc1_of_encode rfl, assignsFlag_of_effect (f := .C) rfl⟩,
    ⟨enc1_of_encode rfl, assignsFlag_of_effect (f := .C) rfl⟩,
    ⟨enc1_of_encode rfl, assignsFlag_of_effect (f := .I) rfl⟩,
    ⟨enc1_of_encode rfl, assignsFlag_of_effect (f := .I) rfl⟩,
    ⟨enc1_of_encode rfl, assignsFlag_of_effect (f := .V) rfl⟩,
    ⟨enc1_of_encode rfl, assignsFlag_of_effect (f := .D) rfl⟩,
    ⟨enc1_of_encode rfl, assignsFlag_of_effect (f := .D) rfl⟩⟩

end Sys2Proof.Machine
end

section
/-! SUPPORT. What a branch says in the claims' words, JSR and RTS as a push and a pull of a word, and where an RTS with
the stack of a JSR goes on; from there the branches, the jumps, JSR, RTS and NOP (46_control_flow.md R240 to R254). -/

namespace Sys2Proof.Machine

/-! ### Branches (R240) -/

section branches

variable {i : Instr} {s : State} {f : Flag} {want : Bool} {off : Byte}

theorem branched_of_taken (h : getFlag s.P f = want) :
    branched s f want off =
      { s with
        PC := s.PC + 2 + sext16 off
        budget := s.budget - (3 + crossCycles (s.PC + 2) (s.PC + 2 + sext16 off)) } := by
  rw [branched, if_pos h, if_pos h]

theorem branched_of_not_taken (h : ¬ getFlag s.P f = want) :
    branched s f want off = { s with PC := s.PC + 2, budget := s.budget - 2 } := by
  rw [branched, if_neg h, if_neg h]

/-- An instruction whose closed form is a branch on `f` is taken exactly where `f` has the value `want`. -/
theorem branches_of_effect (h : effect i s = branched s f want off) :
    Claim.Branches i s off (getFlag s.P f = want) := by
  rw [Claim.Branches, crossCost_eq_crossCycles, exec_eq_effect, h]
  exact ⟨fun taken => congrArg _ (branched_of_taken taken), fun other => congrArg _ (branched_of_not_taken other)⟩

end branches

/-! ### Subroutines (R250, R251, R254) -/

theorem effect_jsr (target : Word) (s : State) :
    effect (.jsr target) s =
      { s with mem := (pushWord (s.PC + 2) s).mem, SP := s.SP - 2, PC := target, budget := s.budget - 6 } := rfl

theorem effect_rts_PC (s : State) : (effect .rts s).PC = (pullWord s).1 + 1 := rfl

theorem effect_rts_SP (s : State) : (effect .rts s).SP = (pullWord s).2.SP := rfl

/-- With the stack as a JSR left it, an RTS pulls the address of the JSR's last byte and goes on one past it. -/
theorem effect_rts_of_stack_of_jsr {s t : State} {target : Word} (hsp : t.SP = (effect (.jsr target) s).SP)
    (hmem : t.mem = (effect (.jsr target) s).mem) : (effect .rts t).PC = s.PC + 3 ∧ (effect .rts t).SP = s.SP := by
  obtain ⟨word, sp⟩ := pulledWordIsThePushedOne s t (s.PC + 2) hsp hmem
  rw [effect_rts_PC, effect_rts_SP, word]
  exact ⟨add_assoc s.PC 2 1, sp⟩

/-! ### The obligations -/

/-- Settles O31: each of the eight closed forms is a branch on the flag whose bit the claim names. -/
theorem branchesTestTheirFlag : Obligations.BranchesTestTheirFlag := fun _ _ =>
  ⟨⟨enc2_of_encode rfl, branches_of_effect (f := .N) rfl⟩, ⟨enc2_of_encode rfl, branches_of_effect (f := .N) rfl⟩,
    ⟨enc2_of_encode rfl, branches_of_effect (f := .V) rfl⟩, ⟨enc2_of_encode rfl, branches_of_effect (f := .V) rfl⟩,
    ⟨enc2_of_encode rfl, branches_of_effect (f := .C) rfl⟩, ⟨enc2_of_encode rfl, branches_of_effect (f := .C) rfl⟩,
    ⟨enc2_of_encode rfl, branches_of_effect (f := .Z) rfl⟩, ⟨enc2_of_encode rfl, branches_of_effect (f := .Z) rfl⟩⟩

/-- Settles O33: PC is the operand itself, or the word that the pointer holds. -/
theorem jumpsSetPc : Obligations.JumpsSetPc := fun s w =>
  ⟨⟨enc3_of_encode rfl, exec_eq_effect s (.jmpAbs w)⟩, ⟨enc3_of_encode rfl, exec_eq_effect s (.jmpInd w)⟩⟩

/-- Settles O34, from the reads after the push of the return address. -/
theorem jsrPushesReturnAddress : Obligations.JsrPushesReturnAddress := fun s w =>
  ⟨enc3_of_encode rfl, (pushWord (s.PC + 2) s).mem, pushWord_read_high s _, pushWord_read_low s _,
    fun _ high low => pushWord_read_other s _ high low, (exec_eq_effect s _).trans (congrArg _ (effect_jsr w s))⟩

/-- Settles O35: the pulled word has its low byte at SP +8 1 and its high byte at SP +8 2. -/
theorem rtsPullsReturnAddress : Obligations.RtsPullsReturnAddress := fun s =>
  ⟨enc1_of_encode rfl, exec_eq_effect s .rts⟩

/-- Settles O37: the pulled word is the pushed one, two past the JSR. -/
theorem rtsReturnsBehindJsr : Obligations.RtsReturnsBehindJsr := fun s w =>
  ⟨_, exec_eq_effect s (.jsr w), fun t hsp hmem =>
    ⟨_, exec_eq_effect t .rts, effect_rts_of_stack_of_jsr hsp hmem⟩⟩

/-- Settles O36: the closed form of NOP is that of the opcode fetch and its internal cycle alone. -/
theorem nopOnlyAdvances : Obligations.NopOnlyAdvances := fun s =>
  ⟨enc1_of_encode rfl, exec_eq_effect s .nop⟩

end Sys2Proof.Machine
end

section
/-! SUPPORT. Two runs that differ only in P.I and P.D, compared on the closed forms, and the call with a budget of 1
(60_exceptions.md R264, R273). -/

namespace Sys2Proof.Machine

/-! ### Status bytes that differ only in I and D (R211, R264) -/

/-- The two status bytes agree in every bit but those of I and D. -/
def AgreeBesidesID (p q : Byte) : Prop := ∀ k, k ≠ 2 → k ≠ 3 → p.getLsbD k = q.getLsbD k

namespace AgreeBesidesID

variable {p q : Byte} (h : AgreeBesidesID p q)
include h

theorem getFlag_eq {f : Flag} (hi : f ≠ .I) (hd : f ≠ .D) : getFlag p f = getFlag q f :=
  h f.bit (fun e => hi (Flag.bit_injective e)) (fun e => hd (Flag.bit_injective e))

theorem setFlag (f : Flag) (v : Bool) : AgreeBesidesID (setFlag p f v) (setFlag q f v) := fun k hi hd => by
  rw [getLsbD_setFlag, getLsbD_setFlag, h k hi hd]

theorem assignZN (v : Byte) : AgreeBesidesID (assignZN p v) (assignZN q v) :=
  (h.setFlag .Z _).setFlag .N _

theorem pulledP (v : Byte) : AgreeBesidesID (pulledP p v) (pulledP q v) := fun k hi hd => by
  rw [getLsbD_pulledP, getLsbD_pulledP, h k hi hd]

end AgreeBesidesID

/-! ### Two runs that differ only in I and D (R264) -/

/-- The state `t` is `u` but for bits I and D of P. -/
def SameBesidesID (t u : State) : Prop := ∃ p, t = { u with P := p } ∧ AgreeBesidesID p u.P

section runs

variable {s : State} {p : Byte} (h : AgreeBesidesID p s.P)
include h

/-- ADC reads C alone of P: it adds in binary whatever D holds (R211). -/
theorem added_replace_P (m : Byte) (len : Word) (cycles : Int) :
    SameBesidesID (added { s with P := p } m len cycles) (added s m len cycles) := by
  have carry : getFlag p .C = getFlag s.P .C := h.getFlag_eq (by decide) (by decide)
  simp only [added, carry]
  exact ⟨_, rfl, ((h.setFlag _ _).setFlag _ _).assignZN _⟩

theorem branched_replace_P {f : Flag} (hi : f ≠ .I) (hd : f ≠ .D) (want : Bool) (off : Byte) :
    SameBesidesID (branched { s with P := p } f want off) (branched s f want off) := by
  have flag : getFlag p f = getFlag s.P f := h.getFlag_eq hi hd
  simp only [branched, flag]
  exact ⟨_, rfl, h⟩

/-- Every instruction but PHP, which stores P whole, runs on as if I and D were not there: ADC reads C, a branch reads
the flag it tests, and the others read P only to keep its bits. -/
theorem effect_replace_P {i : Instr} (hp : i.mnemonic ≠ .PHP) :
    SameBesidesID (effect i { s with P := p }) (effect i s) := by
  cases i with
  | php => exact absurd rfl hp
  | adcImm | adcZp | adcZpX | adcAbs | adcAbsX | adcAbsY | adcIndX | adcIndY => exact added_replace_P h _ _ _
  | bpl | bmi | bvc | bvs | bcc | bcs | bne | beq => exact branched_replace_P h (by decide) (by decide) _ _
  | bitZp | bitAbs => exact ⟨_, rfl, ((h.setFlag .Z _).setFlag .N _).setFlag .V _⟩
  | clc | sec | cli | sei | clv | cld | sed => exact ⟨_, rfl, h.setFlag _ _⟩
  | plp => exact ⟨_, rfl, h.pulledP _⟩
  | staZp | staZpX | staAbs | staAbsX | staAbsY | staIndX | staIndY | stxZp | stxZpY | stxAbs | styZp | styZpX
  | styAbs | txs | pha | jmpAbs | jmpInd | jsr | rts | nop => exact ⟨_, rfl, h⟩
  | _ => exact ⟨_, rfl, h.assignZN _⟩

end runs

/-! ### The obligations -/

/-- Settles O41, by comparing the closed forms of the two runs. -/
theorem interruptAndDecimalFlagsSteerNothing : Obligations.InterruptAndDecimalFlagsSteerNothing := by
  intro i s t p hp h ht
  obtain rfl := eq_effect_of_exec ht
  obtain ⟨p', run, agree⟩ := effect_replace_P h hp
  exact ⟨p', (exec_eq_effect _ i).trans (congrArg _ run), agree⟩

/-- Settles O56: the one instruction costs 2 cycles at least, so the call goes on with its budget used up. -/
theorem budgetOneRunsOneInstruction : Obligations.BudgetOneRunsOneInstruction := by
  intro s t hs
  have spent : t.budget ≤ 0 := by
    obtain ⟨cost, -⟩ := step_withBudget_cost hs
    omega
  calc execute 1 s
    _ = Claim.plusConsumed (1 - t.budget) (execute t.budget t) := execute_of_next Int.one_pos hs
    _ = .done (betweenCalls t) (1 - t.budget + 0) := by rw [execute_of_nonpos spent, Claim.plusConsumed]
    _ = .done { t with budget := 0 } (1 - t.budget) := by rw [add_zero]; rfl

end Sys2Proof.Machine
end

section
/-! SUPPORT. The host calls around execute, that is reset, clear and load (70_reset_and_hazards.md R290 to R296), an
instruction run with another budget (R302), and the two ends of a call (R303). -/

namespace Sys2Proof.Machine

/-! ### A list of bytes copied to memory (R296) -/

theorem word_add_ofNat_succ (a : Word) (k : Nat) : a + BitVec.ofNat 16 (k + 1) = a + 1 + BitVec.ofNat 16 k := by
  bv_omega

/-- A copy leaves every address that none of its bytes goes to as it was. -/
theorem Memory.read_writeBytes_other (m : Memory) (a : Word) {x : Word} {bs : List Byte}
    (h : ∀ k, k < bs.length → x ≠ a + BitVec.ofNat 16 k) : (m.writeBytes a bs).read x = m.read x := by
  induction bs generalizing m a with
  | nil => rfl
  | cons b bs ih =>
    have first : x ≠ a := by simpa using h 0 (Nat.succ_pos _)
    have later (k : Nat) (hk : k < bs.length) : x ≠ a + 1 + BitVec.ofNat 16 k := by
      rw [← word_add_ofNat_succ]
      exact h (k + 1) (Nat.succ_lt_succ hk)
    calc (m.writeBytes a (b :: bs)).read x
      _ = (m.write a b).read x := ih _ _ later
      _ = m.read x := Memory.read_write_other m b first

/-- Byte k of a copy stands k addresses on: a copy of at most 65536 bytes overwrites none of its own. -/
theorem Memory.read_writeBytes (m : Memory) (a : Word) {bs : List Byte} (fits : bs.length ≤ Config.memSize) {k : Nat}
    (hk : k < bs.length) : (m.writeBytes a bs).read (a + BitVec.ofNat 16 k) = bs[k] := by
  induction bs generalizing m a k with
  | nil => exact absurd hk (Nat.not_lt_zero k)
  | cons b bs ih =>
    have short : bs.length < 65536 := fits
    cases k with
    | zero =>
      have free (j : Nat) (hj : j < bs.length) : a + 0#16 ≠ a + 1 + BitVec.ofNat 16 j := by bv_omega
      calc (m.writeBytes a (b :: bs)).read (a + 0#16)
        _ = (m.write a b).read (a + 0#16) := Memory.read_writeBytes_other _ _ free
        _ = b := by simp
    | succ k =>
      rw [word_add_ofNat_succ]
      exact ih _ _ short.le (Nat.lt_of_succ_lt_succ hk)

/-! ### Load (R296) -/

/-- The memory a load leaves: the body copied, then the two vector bytes. -/
def loaded (m : Memory) (lo hi : Byte) (body : List Byte) : Memory :=
  ((m.writeBytes (wordOfBytes lo hi) body).write 0xFFFC#16 lo).write 0xFFFD#16 hi

section load

variable (m : Memory) (s : State) (lo hi : Byte) {body : List Byte}

theorem load_of_fits (h : (wordOfBytes lo hi).toNat + body.length ≤ Config.memSize) :
    load (lo :: hi :: body) s = .next { s with mem := loaded s.mem lo hi body } :=
  if_pos (decide_eq_true h)

theorem load_of_not_fits (h : Config.memSize < (wordOfBytes lo hi).toNat + body.length) :
    load (lo :: hi :: body) s = .refused .loadPastEnd :=
  if_neg (by rw [loadBodyFits, decide_eq_true_eq]; exact h.not_ge)

theorem load_of_short {buf : List Byte} (h : buf.length < 2) : load buf s = .refused .loadBufferTooShort := by
  match buf, h with
  | [], _ | [_], _ => rfl

theorem read_loaded_vectorLow : (loaded m lo hi body).read 0xFFFC#16 = lo := by
  rw [loaded, Memory.read_write_other _ _ (by decide), Memory.read_write_same]

theorem read_loaded_vectorHigh : (loaded m lo hi body).read 0xFFFD#16 = hi :=
  Memory.read_write_same _ _ _

/-- Off the vector, a load leaves what its copy of the body left. -/
theorem read_loaded_other {a : Word} (hlo : a ≠ 0xFFFC#16) (hhi : a ≠ 0xFFFD#16) :
    (loaded m lo hi body).read a = (m.writeBytes (wordOfBytes lo hi) body).read a := by
  rw [loaded, Memory.read_write_other _ _ hhi, Memory.read_write_other _ _ hlo]

end load

/-! ### Reset (R290) -/

theorem resetRegisters_PC (s : State) :
    (resetRegisters s).PC = wordOfBytes (s.mem.read 0xFFFC#16) (s.mem.read 0xFFFD#16) := rfl

/-! ### The budget (R302) -/

/-- The budget shows in nothing that an instruction leaves but the budget. -/
theorem effect_withBudget_rest (i : Instr) (s : State) (b : Int) :
    effect i { s with budget := b } = { effect i s with budget := (effect i { s with budget := b }).budget } := by
  cases i <;> rfl

/-- An instruction takes the same cycles off every budget: what it charges is read from the rest of the state. -/
theorem effect_withBudget_budget (i : Instr) (s : State) (b : Int) :
    (effect i { s with budget := b }).budget = b - (s.budget - (effect i s).budget) := by
  have charged (c : Int) : b - c = b - (s.budget - (s.budget - c)) := by rw [sub_sub_self]
  cases i <;> exact charged _

/-! ### The obligations -/

/-- Settles O4, from the memory a load leaves, read address by address. -/
theorem loadPlacesProgram : Obligations.LoadPlacesProgram := by
  refine fun s => ⟨fun lo hi body fits => ⟨loaded s.mem lo hi body, load_of_fits s lo hi fits,
    read_loaded_vectorLow .., read_loaded_vectorHigh .., ?entry, ?placed, ?kept⟩, fun _ => load_of_short s,
    fun lo hi _ => load_of_not_fits s lo hi⟩
  case entry => rw [resetRegisters_PC, read_loaded_vectorLow, read_loaded_vectorHigh, wordOfBytes]
  case placed =>
    intro k hk hlo hhi
    rw [read_loaded_other _ _ _ hlo hhi]
    exact Memory.read_writeBytes _ _ (le_of_add_le_right fits) hk
  case kept =>
    intro a hlo hhi outside
    rw [read_loaded_other _ _ _ hlo hhi]
    exact Memory.read_writeBytes_other _ _ outside

/-- Settles O42, by comparing the closed forms of the two runs. -/
theorem budgetSteersNoInstruction : Obligations.BudgetSteersNoInstruction := by
  intro i s t b h
  obtain rfl := eq_effect_of_exec h
  calc exec i { s with budget := b }
    _ = .next (effect i { s with budget := b }) := exec_eq_effect _ i
    _ = .next { effect i s with budget := b - (s.budget - (effect i s).budget) } := by
      rw [effect_withBudget_rest, effect_withBudget_budget]

/-- Settles O49: a step is an instruction's effect, and none writes these bits. -/
theorem stepKeepsBreakAndUnusedBits : Obligations.StepKeepsBreakAndUnusedBits := by
  intro s t h
  obtain ⟨i, hi⟩ := step_next_inv h
  rw [eq_effect_of_exec hi]
  exact effect_P_and_0x30 i s

/-- Settles O57, by induction along the call: every step before its end consumed some of the budget. -/
theorem executeEndsInOneOfTwoWays : Obligations.ExecuteEndsInOneOfTwoWays := by
  intro b s
  induction b, s using execute_induction with
  | spent b s h => exact .inl ⟨_, _, execute_of_nonpos h⟩
  | fault b s f hb hs =>
    obtain ⟨rfl, unknown⟩ := step_fault_inv hs
    exact .inr ⟨_, _, execute_of_fault hb hs, (decodeOpcode_eq_none_iff _).mp unknown, le_rfl, hb⟩
  | next b s t hb hs ih =>
    obtain ⟨cost, -⟩ := step_withBudget_cost hs
    rw [execute_of_next hb hs]
    rcases ih with ⟨u, c, done⟩ | ⟨u, c, fault, unknown, nonneg, below⟩
    · rw [done]
      exact .inl ⟨_, _, rfl⟩
    · rw [fault]
      exact .inr ⟨_, _, rfl, unknown, by omega, by omega⟩

/-- Settles O1. -/
theorem resetStateIsCreation : Obligations.ResetStateIsCreation :=
  ⟨reset_eq_create, rfl, rfl, rfl, rfl, rfl, rfl, Memory.read_nil⟩

/-- Settles O2. -/
theorem resetRegistersFromVector : Obligations.ResetRegistersFromVector := fun _ => rfl

/-- Settles O3: the registers-only reset over the cleared memory, whose vector is 0x00 twice. -/
theorem resetAndClearZeroes : Obligations.ResetAndClearZeroes := by
  refine fun s => ⟨s.mem.clear, s.mem.read_clear, ?_⟩
  have vector : (0x00#8 ++ 0x00#8 : Word) = 0x0000#16 := by decide
  rw [resetAndClear, resetRegistersFromVector]
  simp only [Memory.read_clear, vector]

end Sys2Proof.Machine
end
